-- ==== Sys2Proof/Word.lean ====
section
/-! DEFINITION. The word types of the block: one name per register or port width (00_scope.md R6, R9). Every value is unsigned. -/

namespace Sys2Proof

/-- 16 bits: every generator register and `OUT` of the W = 16 build (R6). -/
abbrev Word16 := BitVec 16

/-- 32 bits: `OUT32` (R29). -/
abbrev Word32 := BitVec 32

/-- 55 bits: the AWC words of the W = 64 build, `AWC_SH = 55` (R6). -/
abbrev Word55 := BitVec 55

/-- 64 bits: the other generator registers of the W = 64 build, and `rd_data` (R6, R33). -/
abbrev Word64 := BitVec 64

/-- 4 bits: `cmd_op` (R70) and `rd_idx` (R33). -/
abbrev Word4 := BitVec 4

end Sys2Proof
end

