-- ==== Sys2Proof/Config.lean ====
section
/-! DEFINITION. What one build fixes: the width variant (R2), the shape of a generator state (used for the registers, for the
seed ports and for the reset parameters, which R56 and R233 make equally wide), and the parameters no rule reads. -/

namespace Sys2Proof

/-- The build parameter `W` (R2): `W = 16` or `W = 64`, fixed when the block is built. -/
inductive Variant where
  | w16
  | w64
deriving DecidableEq, Repr

/-- One GeneratorState of the W = 16 variant (R20, R23, R25 to R27). The seed ports (R51) and the reset parameters (R7) have the
same fields at the same widths. -/
structure Gen16 where
  s0 : Word16
  s1 : Word16
  x0 : Word16
  x1 : Word16
  c : Word16
  weyl : Word16
deriving DecidableEq, Repr

/-- One GeneratorState of the W = 64 variant (R20, R24 to R27), likewise. -/
structure Gen64 where
  xsh : Word64
  x0 : Word55
  x1 : Word55
  c : Word64
  weyl : Word64
deriving DecidableEq, Repr

/-- `T_SETUP` of the physical implementation (D36, I13): a parameter no rule reads (log 13). -/
opaque Config.tSetup : Nat

/-- `T_HOLD` of the physical implementation (D36, I13): a parameter no rule reads (log 13). -/
opaque Config.tHold : Nat

/-- `F_CLK` of the physical implementation (D36, I13): a parameter no rule reads (log 13). -/
opaque Config.fClk : Nat

/-- `GOLDEN16_REPO` (I10): the source's pinned 16-bit golden value, which the spec does not know (log 13). -/
opaque Config.golden16Repo : Word32

/-- `GOLDEN64_REPO` (I10): the source's pinned 64-bit golden value, which the spec does not know (log 13). -/
opaque Config.golden64Repo : Word64

end Sys2Proof
end

