-- ==== Sys2Proof/Syntax.lean ====
section
/-! DEFINITION. The commands, one constructor per row of spec/opcode_table.json (30_encoding.md R72), and the lines of a command
program (R76, R77). No command has an immediate or a register field (R71): SEED's operands are the values on the seed ports at
its edge (R53), so they stand in State. -/

namespace Sys2Proof

/-- One command word as its build reads it (R72). -/
inductive Instr where
  /-- `0x0` (R162). -/
  | nop
  /-- `0x1` (R163). -/
  | step
  /-- `0x2` in the W = 16 build (R164). -/
  | step2
  /-- `0x2` in the W = 64 build, where it is illegal (R73, R168). -/
  | illegalStep2W64
  /-- `0x3` (R165). -/
  | seed
  /-- `0x4` (R167). -/
  | clrerr
  /-- The reserved words `0x5` to `0xF` (R73, R168). -/
  | illegal5
  | illegal6
  | illegal7
  | illegal8
  | illegal9
  | illegalA
  | illegalB
  | illegalC
  | illegalD
  | illegalE
  | illegalF
deriving DecidableEq, Repr

/-- The registers `READ` can name: those with a readback index (R33, R77). -/
inductive RegName where
  | s0 | s1 | xsh | x0 | x1 | c | weyl | out | out32 | status | config
deriving DecidableEq, Repr

/-- The arguments of a `SEED` line (R76), as written: natural numbers that may or may not fit their ports. -/
inductive SeedArgs where
  | w16 (s0 s1 x0 x1 c weyl : Nat)
  | w64 (xsh x0 x1 c weyl : Nat)
deriving DecidableEq, Repr

/-- One line of a command program (R76) or one pseudo-instruction (R77). -/
inductive Line where
  | nop
  | step
  | step2
  | clrerr
  | seed (args : SeedArgs)
  /-- `ILLEGAL 0xN`: the word `N` itself. -/
  | illegal (n : Word4)
  | reset
  | idle
  | stepN (n : Nat)
  | step2N (n : Nat)
  | read (name : RegName)
deriving DecidableEq, Repr

end Sys2Proof
end

