-- ==== Sys2Proof/WellFormed.lean ====
section
/-! DEFINITION. What the types of Syntax.lean do not already say: which commands a build has (R72), and which program lines a
build's assembler accepts (R76, R77). -/

namespace Sys2Proof

/-- `i` is a command of build `v`: the word `0x2` is `STEP2` in W = 16 and illegal in W = 64 (R72, R73). -/
def Instr.wf (v : Variant) : Instr → Bool
  | .step2 => v == .w16
  | .illegalStep2W64 => v == .w64
  | .nop | .step | .seed | .clrerr => true
  | .illegal5 | .illegal6 | .illegal7 | .illegal8 | .illegal9 | .illegalA | .illegalB | .illegalC | .illegalD
  | .illegalE | .illegalF => true

/-- Every value fits its seed port (R51, R56, R76). -/
def SeedArgs.fits : SeedArgs → Bool
  | .w16 s0 s1 x0 x1 c weyl =>
    decide (s0 < 2 ^ 16) && decide (s1 < 2 ^ 16) && decide (x0 < 2 ^ 16) && decide (x1 < 2 ^ 16) && decide (c < 2 ^ 16)
      && decide (weyl < 2 ^ 16)
  | .w64 xsh x0 x1 c weyl =>
    decide (xsh < 2 ^ 64) && decide (x0 < 2 ^ 55) && decide (x1 < 2 ^ 55) && decide (c < 2 ^ 64) && decide (weyl < 2 ^ 64)

/-- The argument list is the one the grammar gives build `v` (R76). -/
def SeedArgs.variant : SeedArgs → Variant
  | .w16 .. => .w16
  | .w64 .. => .w64

/-- The register has a readback index in build `v` (R33). -/
def RegName.present (v : Variant) : RegName → Bool
  | .s0 | .s1 | .out32 => v == .w16
  | .xsh => v == .w64
  | .x0 | .x1 | .c | .weyl | .out | .status | .config => true

/-- The assembler of build `v` accepts the line (R76, R77): a SEED has its build's arguments and each fits its port, `STEP2N` is
for W = 16 only, and `READ` names a register the build has. -/
def Line.wf (v : Variant) : Line → Bool
  | .nop | .step | .step2 | .clrerr | .illegal _ | .reset | .idle | .stepN _ => true
  | .step2N _ => v == .w16
  | .seed args => args.variant == v && args.fits
  | .read name => name.present v

end Sys2Proof
end

