-- ==== Sys2Proof/Decode.lean ====
section
/-! DEFINITION. Decoding and encoding of command words (30_encoding.md R70 to R75). The decoder is total on 4-bit words and
depends on nothing but the word and the build (R75). -/

namespace Sys2Proof

/-- Why a number is no command word. -/
inductive DecodeError where
  /-- The number does not fit the 4-bit port `cmd_op` (R51, R70; log 18). -/
  | widerThanPort
deriving DecidableEq, Repr

/-- The opcode map (R72): every 4-bit value is exactly one row of its build. -/
def decode (v : Variant) (op : Word4) : Instr :=
  match op.toNat with
  | 0x0 => .nop
  | 0x1 => .step
  | 0x2 =>
    match v with
    | .w16 => .step2
    | .w64 => .illegalStep2W64
  | 0x3 => .seed
  | 0x4 => .clrerr
  | 0x5 => .illegal5
  | 0x6 => .illegal6
  | 0x7 => .illegal7
  | 0x8 => .illegal8
  | 0x9 => .illegal9
  | 0xA => .illegalA
  | 0xB => .illegalB
  | 0xC => .illegalC
  | 0xD => .illegalD
  | 0xE => .illegalE
  | _ => .illegalF

/-- Decoding of any number, rejecting by name what is no 4-bit word (log 18). -/
def decodeNat (v : Variant) (w : Nat) : Except DecodeError Instr :=
  if w < 2 ^ 4 then .ok (decode v (BitVec.ofNat 4 w)) else .error .widerThanPort

/-- The instruction that the W = 16 build, the build of `State.reset`, reads from the table word `w` (log 1, log 2). A table word
has 4 bits whatever `nbits` says (R70). -/
def decodeTableWord (_nbits w : Nat) : Option Instr :=
  match decodeNat .w16 w with
  | .ok i => some i
  | .error _ => none

/-- The command word of an instruction (R72, R76). -/
def encode : Instr → Word4
  | .nop => 0x0#4
  | .step => 0x1#4
  | .step2 => 0x2#4
  | .illegalStep2W64 => 0x2#4
  | .seed => 0x3#4
  | .clrerr => 0x4#4
  | .illegal5 => 0x5#4
  | .illegal6 => 0x6#4
  | .illegal7 => 0x7#4
  | .illegal8 => 0x8#4
  | .illegal9 => 0x9#4
  | .illegalA => 0xA#4
  | .illegalB => 0xB#4
  | .illegalC => 0xC#4
  | .illegalD => 0xD#4
  | .illegalE => 0xE#4
  | .illegalF => 0xF#4

end Sys2Proof
end

