-- ==== Sys2Proof/Machine/Consts.lean ====
section
/-! DEFINITION. The fixed constants of each variant (00_scope.md R3, R6) and the default reset parameters (R7). -/

namespace Sys2Proof.Machine

/-- `W` (R6). -/
def widthW : Variant → Nat
  | .w16 => 16
  | .w64 => 64

/-- `A`, the width of the AWC words (R6). -/
def widthA : Variant → Nat
  | .w16 => 16
  | .w64 => 55

/-- `CW`, the width of the carry register (R6). -/
def widthCW : Variant → Nat
  | .w16 => 16
  | .w64 => 64

/-- The Weyl increment `INC`, W = 16 (R6). -/
def inc16 : Word16 := 0x9E39#16

/-- The Weyl increment `INC`, W = 64 (R6). -/
def inc64 : Word64 := 0x9E3779B97F4A7C15#64

/-- The default reset parameters, W = 16, read as decimal (R7, D6). -/
def defaultParams16 : Gen16 := { s0 := 8765#16, s1 := 4321#16, x0 := 3#16, x1 := 2#16, c := 1#16, weyl := 1234#16 }

/-- The default reset parameters, W = 64, read as decimal (R7, D6). -/
def defaultParams64 : Gen64 := { xsh := 87654321#64, x0 := 3#55, x1 := 2#55, c := 1#64, weyl := 12345678#64 }

end Sys2Proof.Machine
end

