-- ==== Sys2Proof/Machine/Datapath16.lean ====
section
/-! DEFINITION. The W = 16 step (40_step_w16.md R100 to R106): pure functions of the generator state. -/

namespace Sys2Proof.Machine

/-- `trunc_N`: `v mod 2^N` (R10). -/
def truncN (n v : Nat) : BitVec n := BitVec.ofNat n v

/-- `rotl_16(x, r)` for `0 < r < 16`: `trunc_16(x << r) | (x >> (16 - r))` (R10). -/
def rotl16 (x : Word16) (r : Nat) : Word16 := (x <<< r) ||| (x >>> (16 - r))

/-- The value of `s1` after the first statement of the xorshift sub-step, `s1 ^= s0` (R101). -/
def xs16Mix (s0 s1 : Word16) : Word16 := s1 ^^^ s0

/-- `xs16`: the new `(s0, s1)` (R101). -/
def xs16 (s0 s1 : Word16) : Word16 × Word16 :=
  (rotl16 s0 13 ^^^ xs16Mix s0 s1 ^^^ (xs16Mix s0 s1 <<< 5), rotl16 (xs16Mix s0 s1) 10)

/-- The exact AWC sum `t`, never truncated (R102, R8, C6). -/
def awcSum16 (x0 x1 c : Word16) : Nat := x0.toNat + x1.toNat + c.toNat

/-- `awc16`: the new `(x0, x1, c)`; the carry is the quotient of `t` by `2^16` (R102, C1). -/
def awc16 (x0 x1 c : Word16) : Word16 × Word16 × Word16 :=
  (truncN 16 (awcSum16 x0 x1 c), x0, truncN 16 (awcSum16 x0 x1 c >>> 16))

/-- `weyl16` (R103). -/
def weyl16 (weyl : Word16) : Word16 := weyl + inc16

/-- `out16`: reads the values after the three sub-steps (R104). -/
def out16 (s0 s1 x0 weyl : Word16) : Word16 := x0 + s0 + s1 + weyl

/-- The generator state after one step (R105). -/
def nextGen16 (g : Gen16) : Gen16 :=
  { s0 := (xs16 g.s0 g.s1).1
    s1 := (xs16 g.s0 g.s1).2
    x0 := (awc16 g.x0 g.x1 g.c).1
    x1 := (awc16 g.x0 g.x1 g.c).2.1
    c := (awc16 g.x0 g.x1 g.c).2.2
    weyl := weyl16 g.weyl }

/-- `step16`: the next generator state and the output (R105). -/
def step16 (g : Gen16) : Gen16 × Word16 :=
  (nextGen16 g, out16 (nextGen16 g).s0 (nextGen16 g).s1 (nextGen16 g).x0 (nextGen16 g).weyl)

/-- `{OUT[15:0], o}`: the earlier output in the high half (R106, R10). -/
def pack32 (out o : Word16) : Word32 := out ++ o

end Sys2Proof.Machine
end

