-- ==== Sys2Proof/Machine/Datapath64.lean ====
section
/-! DEFINITION. The W = 64 step (41_step_w64.md R130 to R135): pure functions of the generator state. -/

namespace Sys2Proof.Machine

/-- `a = XSH ^ trunc_64(XSH << 13)` (R131). -/
def xs64A (x : Word64) : Word64 := x ^^^ (x <<< 13)

/-- `b = a ^ (a >> 17)` (R131). -/
def xs64B (a : Word64) : Word64 := a ^^^ (a >>> 17)

/-- `xsh' = b ^ trunc_64(b << 43)` (R131). -/
def xs64C (b : Word64) : Word64 := b ^^^ (b <<< 43)

/-- `xs64`: each line reads the value the line before wrote (R131). -/
def xs64 (xsh : Word64) : Word64 := xs64C (xs64B (xs64A xsh))

/-- The exact AWC sum `t`, never truncated (R132, R8). -/
def awcSum55 (x0 x1 : Word55) (c : Word64) : Nat := x0.toNat + x1.toNat + c.toNat

/-- `awc55`: the new `(x0, x1, c)`; the carry is the quotient of `t` by `2^55` (R132, C1, C4). -/
def awc55 (x0 x1 : Word55) (c : Word64) : Word55 × Word55 × Word64 :=
  (truncN 55 (awcSum55 x0 x1 c), x0, truncN 64 (awcSum55 x0 x1 c >>> 55))

/-- `weyl64` (R133). -/
def weyl64 (weyl : Word64) : Word64 := weyl + inc64

/-- `p = (x0' << 9) ^ x1'`, on the AWC words as 64-bit values (R134). -/
def out64Mix (x0 x1 : Word55) : Word64 := (x0.setWidth 64 <<< 9) ^^^ x1.setWidth 64

/-- `out64`: reads the values after the sub-steps (R134). -/
def out64 (xsh : Word64) (x0 x1 : Word55) (weyl : Word64) : Word64 := out64Mix x0 x1 + xsh + weyl

/-- The generator state after one step (R135). -/
def nextGen64 (g : Gen64) : Gen64 :=
  { xsh := xs64 g.xsh
    x0 := (awc55 g.x0 g.x1 g.c).1
    x1 := (awc55 g.x0 g.x1 g.c).2.1
    c := (awc55 g.x0 g.x1 g.c).2.2
    weyl := weyl64 g.weyl }

/-- `step64`: the next generator state and the output (R135). -/
def step64 (g : Gen64) : Gen64 × Word64 :=
  (nextGen64 g, out64 (nextGen64 g).xsh (nextGen64 g).x0 (nextGen64 g).x1 (nextGen64 g).weyl)

end Sys2Proof.Machine
end

