-- ==== Sys2Proof/Machine/State.lean ====
section
/-! DEFINITION. The state of one built block (10_state.md R20) and the host's side of its input ports (20_memory.md R51), as plain
data, and the state right after reset (R35). -/

namespace Sys2Proof.Machine

/-- The variant-dependent registers, W = 16 (R20): the generator state, `OUT` and `OUT32`. -/
structure Data16 where
  gen : Gen16
  out : Word16
  out32 : Word32
deriving DecidableEq, Repr

/-- The variant-dependent registers, W = 64 (R20): the generator state and `OUT`. -/
structure Data64 where
  gen : Gen64
  out : Word64
deriving DecidableEq, Repr

/-- All registers of one instance (R20): the variant-dependent ones, then those both variants have. -/
structure Regs (D : Type) where
  data : D
  /-- `OUTCNT`, steps since reset or an accepted SEED, saturating at 2 (R30). -/
  outcnt : BitVec 2
  /-- `SEED_ERR`, sticky (R31, R203). -/
  seedErr : Bool
  /-- `CMD_ERR`, sticky (R31, R202). -/
  cmdErr : Bool
deriving DecidableEq, Repr

/-- The registers, or the spec's "undefined": before the first reset edge after power-up no register has a value, and a model must
not give it one (R231, I1, I2). -/
inductive RegFile (D : Type) where
  | undefined
  | defined (r : Regs D)
deriving DecidableEq, Repr

/-- What kind of cycle the inputs describe (the model's own; log 8, log 9). -/
inductive Condition where
  /-- The edge samples stable inputs. -/
  | normal
  /-- The inputs are not stable around the edge (R238, I14). -/
  | unstable
  /-- Power is lost in this cycle (R213, I2). -/
  | powerLost
deriving DecidableEq, Repr

/-- The input ports both builds have (R51), and the cycle's condition. -/
structure Control where
  cond : Condition
  rst : Bool
  cmdValid : Bool
  cmdOp : Word4
  rdIdx : Word4
deriving DecidableEq, Repr

/-- The input ports in one cycle (R51): the seed ports are as wide as the registers they load (R56). -/
structure Ports (G : Type) where
  ctl : Control
  seed : G
deriving DecidableEq, Repr

/-- One built instance: its reset parameters (R7), its registers, the input ports in the present cycle and what the host drives in
the cycles that follow, oldest first (log 3). -/
structure Built (G D : Type) where
  params : G
  regs : RegFile D
  ports : Ports G
  pending : List (Ports G)
deriving DecidableEq, Repr

/-- An instance implements exactly one variant (R2). -/
inductive Block where
  | w16 (b : Built Gen16 Data16)
  | w64 (b : Built Gen64 Data64)
deriving DecidableEq, Repr

/-- The machine: one built block and the host's side of its ports. -/
structure State where
  block : Block
deriving DecidableEq, Repr

/-- Why the model stops. The block itself has no trap (R206): its error conditions are sticky bits. -/
inductive Fault where
  /-- Raised by every command, readback and output observation while the registers are undefined (R231, I1, I2). Safe: the model
  stops where a chip might show some value (D21). -/
  | beforeReset
  /-- Raised by `step` at an edge whose inputs are not stable (R238, I14). Safe: the model stops where a chip goes on somehow. -/
  | unstableInputs
deriving DecidableEq, Repr

/-- Why the model gives an instruction no meaning. -/
inductive Refusal where
  /-- Raised by `exec` for an instruction that has no meaning yet; no arm does. Safe: the model stops where the hardware goes on. -/
  | notModelled (mnemonic : String)
deriving DecidableEq, Repr

/-- An idle cycle's control inputs: `rst = 0`, `cmd_valid = 0` (R161, R77 `IDLE`). `cmd_op` is not decoded then (R70); it and
`rd_idx` are driven 0 (DESIGN CHOICE, log 4). -/
def Control.idle : Control := { cond := .normal, rst := false, cmdValid := false, cmdOp := 0#4, rdIdx := 0#4 }

/-- The registers that a reset edge leaves, W = 16 (R35, R230). -/
def resetRegs16 (p : Gen16) : Regs Data16 :=
  { data := { gen := p, out := 0#16, out32 := 0#32 }, outcnt := 0#2, seedErr := false, cmdErr := false }

/-- The registers that a reset edge leaves, W = 64 (R35, R230). -/
def resetRegs64 (p : Gen64) : Regs Data64 :=
  { data := { gen := p, out := 0#64 }, outcnt := 0#2, seedErr := false, cmdErr := false }

/-- The W = 16 build with reset parameters `p`, right after a reset edge, the host idle and nothing pending. -/
def State.reset16 (p : Gen16) : State :=
  { block := .w16
      { params := p
        regs := .defined (resetRegs16 p)
        ports := { ctl := .idle, seed := ⟨0#16, 0#16, 0#16, 0#16, 0#16, 0#16⟩ }
        pending := [] } }

/-- The W = 64 build with reset parameters `p`, right after a reset edge, the host idle and nothing pending. -/
def State.reset64 (p : Gen64) : State :=
  { block := .w64
      { params := p
        regs := .defined (resetRegs64 p)
        ports := { ctl := .idle, seed := ⟨0#64, 0#55, 0#55, 0#64, 0#64⟩ }
        pending := [] } }

/-- The machine right after reset: every register as R35 says. The build is the W = 16 one with the default parameters (DESIGN
CHOICE, log 1); the W = 64 one is `State.reset64 defaultParams64`. -/
def State.reset : State := State.reset16 defaultParams16

end Sys2Proof.Machine
end

