-- ==== Sys2Proof/Machine/Flags.lean ====
section
/-! DEFINITION. `OUTCNT` (R30), the read-only views `STATUS` (R31) and `CONFIG` (R32), and the sticky error bits (R201 to R203). -/

namespace Sys2Proof.Machine

/-- `OUTCNT <- min(OUTCNT + 1, 2)` (R30, R163), the sum exact (R10). -/
def bumpOutcnt (n : BitVec 2) : BitVec 2 := BitVec.ofNat 2 (min (n.toNat + 1) 2)

/-- `STATUS.OUT_VALID`: `1` iff `OUTCNT >= 1` (R31). -/
def outValid {D : Type} (r : Regs D) : Bool := decide (1 ≤ r.outcnt.toNat)

/-- `STATUS.OUT32_VALID`: W = 16, `1` iff `OUTCNT = 2`; W = 64, always 0 (R31). -/
def out32Valid {D : Type} (v : Variant) (r : Regs D) : Bool :=
  match v with
  | .w16 => decide (r.outcnt.toNat = 2)
  | .w64 => false

/-- `STATUS`, bits 63:4 zero (R31). -/
def statusWord {D : Type} (v : Variant) (r : Regs D) : Word64 :=
  BitVec.ofNat 64 ((outValid r).toNat + 2 * (out32Valid v r).toNat + 4 * r.seedErr.toNat + 8 * r.cmdErr.toNat)

/-- `CONFIG`: `W` in bits 7:0, `A` in 15:8, `CW` in 23:16, the rest zero (R32). -/
def configWord (v : Variant) : Word64 := BitVec.ofNat 64 (widthW v + 2 ^ 8 * widthA v + 2 ^ 16 * widthCW v)

/-- `SEED_ERR <- 1` (R165, R203). -/
def setSeedErr {D : Type} (r : Regs D) : Regs D := { r with seedErr := true }

/-- `CMD_ERR <- 1` (R168, R202). -/
def setCmdErr {D : Type} (r : Regs D) : Regs D := { r with cmdErr := true }

/-- `SEED_ERR <- 0; CMD_ERR <- 0` (R167). -/
def clearErrs {D : Type} (r : Regs D) : Regs D := { r with seedErr := false, cmdErr := false }

end Sys2Proof.Machine
end

