-- ==== Sys2Proof/Machine/Operands.lean ====
section
/-! DEFINITION. The one operand form: SEED's operands are the values on the seed ports at its edge, used as they are (R53, R56,
R71). And the predicate that says which operands SEED refuses (42_commands.md R166). -/

namespace Sys2Proof.Machine

/-- The seed ports at the present edge (R53). -/
def seedOperands {G : Type} (p : Ports G) : G := p.seed

/-- `xorshift_zero`, W = 16 (R166). -/
def xorshiftZero16 (g : Gen16) : Bool := g.s0 == 0#16 && g.s1 == 0#16

/-- `awc_zero`, W = 16 (R166). -/
def awcZero16 (g : Gen16) : Bool := g.x0 == 0#16 && g.x1 == 0#16 && g.c == 0#16

/-- `degenerate`, W = 16 (R166, C5). The Weyl part plays no role. -/
def degenerate16 (g : Gen16) : Bool := xorshiftZero16 g || awcZero16 g

/-- `xorshift_zero`, W = 64 (R166). -/
def xorshiftZero64 (g : Gen64) : Bool := g.xsh == 0#64

/-- `awc_zero`, W = 64 (R166). -/
def awcZero64 (g : Gen64) : Bool := g.x0 == 0#55 && g.x1 == 0#55 && g.c == 0#64

/-- `degenerate`, W = 64 (R166, C5). -/
def degenerate64 (g : Gen64) : Bool := xorshiftZero64 g || awcZero64 g

end Sys2Proof.Machine
end

