-- ==== Sys2Proof/Machine/Ops.lean ====
section
/-! DEFINITION. The shared operations: what a command does to the registers of its build, and what an edge does around a command
(reset, power loss, the move to the next cycle). The block has no trap (R206): what stands for one is the sticky bit of an error
condition, `setSeedErr` and `setCmdErr` of Flags.lean, and what stands for the return is `clearErrs`. -/

namespace Sys2Proof.Machine

/-- What a step answers. -/
abbrev Result := Host.Outcome State Fault Refusal

/-- Do something to the next state, if there is one. -/
def mapNext (f : State → State) : Result → Result
  | .next s => .next (f s)
  | .fault r => .fault r
  | .refused r => .refused r

/-- The build of a state (R2). -/
def State.variant (s : State) : Variant :=
  match s.block with
  | .w16 _ => .w16
  | .w64 _ => .w64

/-- The control inputs in the present cycle (R51). -/
def State.control (s : State) : Control :=
  match s.block with
  | .w16 b => b.ports.ctl
  | .w64 b => b.ports.ctl

/-- Drive other control inputs in the present cycle; nothing else changes. -/
def State.withControl (f : Control → Control) (s : State) : State :=
  match s.block with
  | .w16 b => { block := .w16 { b with ports := { b.ports with ctl := f b.ports.ctl } } }
  | .w64 b => { block := .w64 { b with ports := { b.ports with ctl := f b.ports.ctl } } }

/-- The frame every command runs in (R160): it reads the registers as they were before the edge and the ports at the edge, and all
its writes take effect together. While no register has a value, a command is a fault (R231). -/
def onRegs (f16 : Ports Gen16 → Regs Data16 → Regs Data16) (f64 : Ports Gen64 → Regs Data64 → Regs Data64) (s : State) :
    Result :=
  match s.block with
  | .w16 b =>
    match b.regs with
    | .undefined => .fault .beforeReset
    | .defined r => .next { block := .w16 { b with regs := .defined (f16 b.ports r) } }
  | .w64 b =>
    match b.regs with
    | .undefined => .fault .beforeReset
    | .defined r => .next { block := .w64 { b with regs := .defined (f64 b.ports r) } }

/-- `do_step()`, W = 16 (R163, R105, R106). -/
def doStep16 (r : Regs Data16) : Regs Data16 :=
  { r with
    data :=
      { gen := (step16 r.data.gen).1
        out := (step16 r.data.gen).2
        out32 := pack32 r.data.out (step16 r.data.gen).2 }
    outcnt := bumpOutcnt r.outcnt }

/-- `do_step()`, W = 64 (R163, R135). -/
def doStep64 (r : Regs Data64) : Regs Data64 :=
  { r with
    data :=
      { gen := (step64 r.data.gen).1
        out := (step64 r.data.gen).2 }
    outcnt := bumpOutcnt r.outcnt }

/-- `SEED`, W = 16 (R165): refused with `SEED_ERR` when degenerate, else every generator register is loaded and `OUT`, `OUT32`,
`OUTCNT` are cleared; the error bits are kept. -/
def loadSeed16 (seed : Gen16) (r : Regs Data16) : Regs Data16 :=
  if degenerate16 seed then setSeedErr r
  else { r with data := { gen := seed, out := 0#16, out32 := 0#32 }, outcnt := 0#2 }

/-- `SEED`, W = 64 (R165). -/
def loadSeed64 (seed : Gen64) (r : Regs Data64) : Regs Data64 :=
  if degenerate64 seed then setSeedErr r
  else { r with data := { gen := seed, out := 0#64 }, outcnt := 0#2 }

/-- A reset edge (R230): every register takes its reset value, whatever it held and whatever the other inputs are. -/
def State.resetEdge (s : State) : State :=
  match s.block with
  | .w16 b => { block := .w16 { b with regs := .defined (resetRegs16 b.params) } }
  | .w64 b => { block := .w64 { b with regs := .defined (resetRegs64 b.params) } }

/-- The machine after power-up and before the first reset edge: no register has a value (R231); likewise after a
loss of power (R213, I2). -/
def State.powerUp (s : State) : State :=
  match s.block with
  | .w16 b => { block := .w16 { b with regs := .undefined } }
  | .w64 b => { block := .w64 { b with regs := .undefined } }

/-- The build check: a block whose reset parameters are degenerate does not exist (R233, D28). A block that exists has just been
powered up: nothing is defined until a reset edge (R234). -/
def build16 (p : Gen16) : Option State := if degenerate16 p then none else some (State.reset16 p).powerUp

/-- The build check, W = 64 (R233, D28). -/
def build64 (p : Gen64) : Option State := if degenerate64 p then none else some (State.reset64 p).powerUp

/-- What the host drives after the last cycle it has named: nothing more, that is `rst = 0` and `cmd_valid = 0`; the other inputs
keep their values (DESIGN CHOICE, log 3). -/
def Control.rest (c : Control) : Control := { c with cond := .normal, rst := false, cmdValid := false }

/-- The inputs of the next cycle: the first pending ones, or the present ones at rest (log 3). -/
def Built.advance {G D : Type} (b : Built G D) : Built G D :=
  match b.pending with
  | p :: ps => { b with ports := p, pending := ps }
  | [] => { b with ports := { b.ports with ctl := b.ports.ctl.rest } }

/-- The move to the next cycle; no register changes. -/
def State.advance (s : State) : State :=
  match s.block with
  | .w16 b => { block := .w16 b.advance }
  | .w64 b => { block := .w64 b.advance }

end Sys2Proof.Machine
end

