-- ==== Sys2Proof/Machine/Commands.lean ====
section
/-! DEFINITION. The legal commands (42_commands.md R162 to R167). -/

namespace Sys2Proof.Machine

/-- `NOP` (R162). -/
def execNop (s : State) : Result := onRegs (fun _ r => r) (fun _ r => r) s

/-- `STEP` (R163). -/
def execStep (s : State) : Result := onRegs (fun _ r => doStep16 r) (fun _ r => doStep64 r) s

/-- `STEP2` (R164): two steps in one edge, the second reading what the first computed. In the W = 64 build its word is an illegal
command (R160, R168; log 10). -/
def execStep2 (s : State) : Result := onRegs (fun _ r => doStep16 (doStep16 r)) (fun _ r => setCmdErr r) s

/-- `SEED` (R165). -/
def execSeed (s : State) : Result :=
  onRegs (fun p r => loadSeed16 (seedOperands p) r) (fun p r => loadSeed64 (seedOperands p) r) s

/-- `CLRERR` (R167). -/
def execClrerr (s : State) : Result := onRegs (fun _ r => clearErrs r) (fun _ r => clearErrs r) s

end Sys2Proof.Machine
end

