-- ==== Sys2Proof/Machine/Illegal.lean ====
section
/-! DEFINITION. The illegal commands (42_commands.md R168, 30_encoding.md R73): `CMD_ERR <- 1`, nothing else. -/

namespace Sys2Proof.Machine

/-- What every illegal command does (R168). -/
def illegalCommand (s : State) : Result := onRegs (fun _ r => setCmdErr r) (fun _ r => setCmdErr r) s

/-- `ILLEGAL(STEP2 in W=64)`: the word `0x2`, illegal in the W = 64 build (R168). In the W = 16 build that word is `STEP2`
(R160, R164; log 10). -/
def execIllegalStep2W64 (s : State) : Result := onRegs (fun _ r => doStep16 (doStep16 r)) (fun _ r => setCmdErr r) s

/-- `ILLEGAL 0x5` (R168). -/
def execIllegal5 (s : State) : Result := illegalCommand s

/-- `ILLEGAL 0x6` (R168). -/
def execIllegal6 (s : State) : Result := illegalCommand s

/-- `ILLEGAL 0x7` (R168). -/
def execIllegal7 (s : State) : Result := illegalCommand s

/-- `ILLEGAL 0x8` (R168). -/
def execIllegal8 (s : State) : Result := illegalCommand s

/-- `ILLEGAL 0x9` (R168). -/
def execIllegal9 (s : State) : Result := illegalCommand s

/-- `ILLEGAL 0xA` (R168). -/
def execIllegalA (s : State) : Result := illegalCommand s

/-- `ILLEGAL 0xB` (R168). -/
def execIllegalB (s : State) : Result := illegalCommand s

/-- `ILLEGAL 0xC` (R168). -/
def execIllegalC (s : State) : Result := illegalCommand s

/-- `ILLEGAL 0xD` (R168). -/
def execIllegalD (s : State) : Result := illegalCommand s

/-- `ILLEGAL 0xE` (R168). -/
def execIllegalE (s : State) : Result := illegalCommand s

/-- `ILLEGAL 0xF` (R168). -/
def execIllegalF (s : State) : Result := illegalCommand s

end Sys2Proof.Machine
end

