-- ==== Sys2Proof/Machine/Edge.lean ====
section
/-! DEFINITION. What one edge samples (20_memory.md R52, R205) and how a command word comes onto the command port. -/

namespace Sys2Proof.Machine

/-- What kind of edge the control inputs make. -/
inductive EdgeKind where
  | unstable
  | powerLoss
  | reset
  | command
  | idle
deriving DecidableEq, Repr

/-- R52 and the priority of R205: a cycle that is not an ordinary one first, then `rst`, then `cmd_valid`. -/
def edgeKind (c : Control) : EdgeKind :=
  match c.cond with
  | .unstable => .unstable
  | .powerLost => .powerLoss
  | .normal => if c.rst then .reset else if c.cmdValid then .command else .idle

/-- The command at the present edge, as the build decodes it (R72, R75). -/
def fetch (s : State) : Instr := decode s.variant s.control.cmdOp

/-- Drive the low `nbits` of `w` on `cmd_op` with `cmd_valid = 1`, in an ordinary cycle without reset. -/
def driveWord (nbits w : Nat) (s : State) : State :=
  s.withControl fun c =>
    { c with cond := .normal, rst := false, cmdValid := true, cmdOp := BitVec.ofNat 4 (w % 2 ^ nbits) }

end Sys2Proof.Machine
end

