-- ==== Sys2Proof/Machine/Step.lean ====
section
/-! DEFINITION. One transition of the model is one clock edge (00_scope.md R12, 20_memory.md R52). -/

namespace Sys2Proof.Machine

/-- One rising edge (R52, R205): reset wins; otherwise a valid command executes; otherwise every register keeps its value. Then
the next cycle begins. An edge with unstable inputs has no meaning (R238, I14); a cycle in which power is lost leaves no register
with a value (R213, I2). -/
def step (s : State) : Host.Outcome State Fault Refusal :=
  match edgeKind s.control with
  | .unstable => .fault .unstableInputs
  | .powerLoss => .next s.powerUp.advance
  | .reset => .next s.resetEdge.advance
  | .command => mapNext State.advance (exec (fetch s) s)
  | .idle => .next s.advance

/-- `s` with the table word `w` driven on the command port in the present cycle, as a valid command of an ordinary cycle without
reset: what the very next `step` executes. The port has 4 bits (R51); the seed ports, `rd_idx` and what is pending stay. -/
def State.withFetchWord (s : State) (nbits w : Nat) : State := driveWord nbits w s

end Sys2Proof.Machine
end

