-- ==== Sys2Proof/Laws/PerInstr.lean ====
section
/-! SUPPORT. Statements made per instruction: the family RoundTrip says of an instruction that in every build that has it, the
word the encoder gives decodes to it (30_encoding.md R72). -/

namespace Sys2Proof.Laws.RoundTrip

def Statement (i : Instr) : Prop := ∀ v : Variant, i.wf v = true → decode v (encode i) = i

theorem nop : Statement .nop := by intro v; cases v <;> decide
theorem step : Statement .step := by intro v; cases v <;> decide
theorem step2 : Statement .step2 := by intro v; cases v <;> decide
theorem illegalStep2W64 : Statement .illegalStep2W64 := by intro v; cases v <;> decide
theorem seed : Statement .seed := by intro v; cases v <;> decide
theorem clrerr : Statement .clrerr := by intro v; cases v <;> decide
theorem illegal5 : Statement .illegal5 := by intro v; cases v <;> decide
theorem illegal6 : Statement .illegal6 := by intro v; cases v <;> decide
theorem illegal7 : Statement .illegal7 := by intro v; cases v <;> decide
theorem illegal8 : Statement .illegal8 := by intro v; cases v <;> decide
theorem illegal9 : Statement .illegal9 := by intro v; cases v <;> decide
theorem illegalA : Statement .illegalA := by intro v; cases v <;> decide
theorem illegalB : Statement .illegalB := by intro v; cases v <;> decide
theorem illegalC : Statement .illegalC := by intro v; cases v <;> decide
theorem illegalD : Statement .illegalD := by intro v; cases v <;> decide
theorem illegalE : Statement .illegalE := by intro v; cases v <;> decide
theorem illegalF : Statement .illegalF := by intro v; cases v <;> decide

end Sys2Proof.Laws.RoundTrip
end

