-- ==== Sys2Proof/Machine/Assembler.lean ====
section
/-! DEFINITION. The assembler of command programs (30_encoding.md R76, R77): from text to lines, from lines to what the host does.
It is no part of the block; it refuses what the hardware cannot hold (I8). -/

namespace Sys2Proof.Machine

/-- Why a program line is refused. -/
inductive AsmError where
  /-- The text is no line of the grammar (R76). -/
  | noSuchLine
  /-- A SEED value does not fit its port: an error, not a truncation (R76, I8). -/
  | valueTooWide
  /-- A SEED with the other build's arguments (R76). -/
  | otherVariant
  /-- `STEP2N` in the W = 64 build (R77). -/
  | onlyW16
  /-- `READ` of a register this build does not have (R33, R77). -/
  | noSuchRegister
deriving DecidableEq, Repr

/-- What the host does for one line: drive the ports at one edge, or observe one readback index between edges (R77). -/
inductive Action (G : Type) where
  | edge (p : Ports G)
  | observe (idx : Word4)
deriving DecidableEq, Repr

/-- The readback index of a register, in the build that has it (R33). -/
def RegName.index (v : Variant) (n : RegName) : Option Word4 :=
  match n with
  | .s0 => if v = .w16 then some 0#4 else none
  | .xsh => if v = .w64 then some 0#4 else none
  | .s1 => if v = .w16 then some 1#4 else none
  | .x0 => some 2#4
  | .x1 => some 3#4
  | .c => some 4#4
  | .weyl => some 5#4
  | .out => some 6#4
  | .out32 => if v = .w16 then some 7#4 else none
  | .status => some 8#4
  | .config => some 9#4

/-- The seed-port values of a SEED line, W = 16 (R76). -/
def seedOf16 (a : SeedArgs) : Except AsmError Gen16 :=
  match a with
  | .w16 s0 s1 x0 x1 c weyl =>
    if a.fits then
      .ok { s0 := BitVec.ofNat 16 s0, s1 := BitVec.ofNat 16 s1, x0 := BitVec.ofNat 16 x0, x1 := BitVec.ofNat 16 x1,
            c := BitVec.ofNat 16 c, weyl := BitVec.ofNat 16 weyl }
    else .error .valueTooWide
  | .w64 .. => .error .otherVariant

/-- The seed-port values of a SEED line, W = 64 (R76). -/
def seedOf64 (a : SeedArgs) : Except AsmError Gen64 :=
  match a with
  | .w64 xsh x0 x1 c weyl =>
    if a.fits then
      .ok { xsh := BitVec.ofNat 64 xsh, x0 := BitVec.ofNat 55 x0, x1 := BitVec.ofNat 55 x1, c := BitVec.ofNat 64 c,
            weyl := BitVec.ofNat 64 weyl }
    else .error .valueTooWide
  | .w16 .. => .error .otherVariant

/-- The ports at an edge that carries the command word `op` and, for SEED, its operands (R76). -/
def commandPorts {G : Type} (op : Word4) (seed : G) : Ports G :=
  { ctl := { cond := .normal, rst := false, cmdValid := true, cmdOp := op, rdIdx := 0#4 }, seed := seed }

/-- The ports at a reset edge (R77 `RESET`). -/
def resetPorts {G : Type} (seed : G) : Ports G := { ctl := { Control.idle with rst := true }, seed := seed }

/-- The ports at an idle edge (R77 `IDLE`). -/
def idlePorts {G : Type} (seed : G) : Ports G := { ctl := .idle, seed := seed }

/-- What the host does for one line. `spare` stands on the seed ports at every edge but a SEED's, where it is not read (R53, I6). -/
def assembleLine {G : Type} (v : Variant) (seedOf : SeedArgs → Except AsmError G) (spare : G) (l : Line) :
    Except AsmError (List (Action G)) :=
  match l with
  | .nop => .ok [.edge (commandPorts (encode .nop) spare)]
  | .step => .ok [.edge (commandPorts (encode .step) spare)]
  | .step2 => .ok [.edge (commandPorts (encode .step2) spare)]
  | .clrerr => .ok [.edge (commandPorts (encode .clrerr) spare)]
  | .seed args =>
    match seedOf args with
    | .ok g => .ok [.edge (commandPorts (encode .seed) g)]
    | .error e => .error e
  | .illegal n => .ok [.edge (commandPorts n spare)]
  | .reset => .ok [.edge (resetPorts spare)]
  | .idle => .ok [.edge (idlePorts spare)]
  | .stepN n => .ok (List.replicate n (.edge (commandPorts (encode .step) spare)))
  | .step2N n =>
    match v with
    | .w16 => .ok (List.replicate n (.edge (commandPorts (encode .step2) spare)))
    | .w64 => .error .onlyW16
  | .read name =>
    match RegName.index v name with
    | some idx => .ok [.observe idx]
    | none => .error .noSuchRegister

/-- What the host does for a program: its lines in order (R76). -/
def assemble {G : Type} (v : Variant) (seedOf : SeedArgs → Except AsmError G) (spare : G) :
    List Line → Except AsmError (List (Action G))
  | [] => .ok []
  | l :: ls =>
    match assembleLine v seedOf spare l with
    | .error e => .error e
    | .ok as =>
      match assemble v seedOf spare ls with
      | .error e => .error e
      | .ok rest => .ok (as ++ rest)

/-! ### From text to lines -/

/-- A token of a line: a word, a comma or an equals sign. -/
inductive Token where
  | word (cs : List Char)
  | comma
  | equals
deriving DecidableEq, Repr

/-- The word read so far, last character first, as a token. -/
def flushWord (w : List Char) : List Token :=
  match w with
  | [] => []
  | _ :: _ => [.word w.reverse]

/-- The tokens of a line; `#` begins a comment (R76); blanks separate. -/
def lexLine : List Char → List Char → List Token
  | [], w => flushWord w
  | ch :: cs, w =>
    if ch = '#' then flushWord w
    else if ch = ' ' ∨ ch = '\t' ∨ ch = '\r' then flushWord w ++ lexLine cs []
    else if ch = ',' then flushWord w ++ .comma :: lexLine cs []
    else if ch = '=' then flushWord w ++ .equals :: lexLine cs []
    else lexLine cs (ch :: w)

/-- The value of a digit; hexadecimal digits in either case (log 12). -/
def digitValue (ch : Char) : Option Nat :=
  if '0'.toNat ≤ ch.toNat ∧ ch.toNat ≤ '9'.toNat then some (ch.toNat - '0'.toNat)
  else if 'A'.toNat ≤ ch.toNat ∧ ch.toNat ≤ 'F'.toNat then some (ch.toNat - 'A'.toNat + 10)
  else if 'a'.toNat ≤ ch.toNat ∧ ch.toNat ≤ 'f'.toNat then some (ch.toNat - 'a'.toNat + 10)
  else none

/-- The number a digit list stands for in a base, most significant digit first, after the part `acc` already read. -/
def readDigits (base : Nat) : List Char → Nat → Option Nat
  | [], acc => some acc
  | ch :: cs, acc =>
    match digitValue ch with
    | some d => if d < base then readDigits base cs (acc * base + d) else none
    | none => none

/-- `v ::= decimal | "0x" hex` (R76); a number has at least one digit. -/
def readNumber (cs : List Char) : Option Nat :=
  match cs with
  | '0' :: 'x' :: d :: ds => readDigits 16 (d :: ds) 0
  | d :: ds => readDigits 10 (d :: ds) 0
  | [] => none

/-- `hex4`, written `0xN` with one digit (R76). -/
def readHex4 (cs : List Char) : Option Word4 :=
  match cs with
  | ['0', 'x', d] => (readDigits 16 [d] 0).map (BitVec.ofNat 4)
  | _ => none

/-- `name "=" v`: the value, and what follows. -/
def readArg (name : List Char) (ts : List Token) : Option (Nat × List Token) :=
  match ts with
  | .word n :: .equals :: .word v :: rest => if n = name then (readNumber v).map fun x => (x, rest) else none
  | _ => none

/-- `"," name "=" v`: the value, and what follows. -/
def readNextArg (name : List Char) (ts : List Token) : Option (Nat × List Token) :=
  match ts with
  | .comma :: rest => readArg name rest
  | _ => none

/-- The end of a line. -/
def readEnd {α : Type} (a : α) (ts : List Token) : Option α :=
  match ts with
  | [] => some a
  | _ :: _ => none

/-- `x0= v , x1= v , c= v , weyl= v`, the arguments both builds have (R76), each after a comma, to the end of the line. -/
def readCommonArgs (ts : List Token) : Option (Nat × Nat × Nat × Nat) := do
  let (x0, ts) ← readNextArg ['x', '0'] ts
  let (x1, ts) ← readNextArg ['x', '1'] ts
  let (c, ts) ← readNextArg ['c'] ts
  let (weyl, ts) ← readNextArg ['w', 'e', 'y', 'l'] ts
  readEnd (x0, x1, c, weyl) ts

/-- `seedargs` (R76): the W = 16 list begins with `s0=`, the W = 64 list with `xsh=`. -/
def readSeedArgs (ts : List Token) : Option SeedArgs :=
  match readArg ['x', 's', 'h'] ts with
  | some (xsh, ts) => do
    let (x0, x1, c, weyl) ← readCommonArgs ts
    return .w64 xsh x0 x1 c weyl
  | none => do
    let (s0, ts) ← readArg ['s', '0'] ts
    let (s1, ts) ← readNextArg ['s', '1'] ts
    let (x0, x1, c, weyl) ← readCommonArgs ts
    return .w16 s0 s1 x0 x1 c weyl

/-- The letters of a register name (R33). -/
def RegName.letters : RegName → List Char
  | .s0 => ['S', '0']
  | .s1 => ['S', '1']
  | .xsh => ['X', 'S', 'H']
  | .x0 => ['X', '0']
  | .x1 => ['X', '1']
  | .c => ['C']
  | .weyl => ['W', 'E', 'Y', 'L']
  | .out => ['O', 'U', 'T']
  | .out32 => ['O', 'U', 'T', '3', '2']
  | .status => ['S', 'T', 'A', 'T', 'U', 'S']
  | .config => ['C', 'O', 'N', 'F', 'I', 'G']

/-- The register a `READ` line names. -/
def readRegName (cs : List Char) : Option RegName :=
  [RegName.s0, .s1, .xsh, .x0, .x1, .c, .weyl, .out, .out32, .status, .config].find? fun n => RegName.letters n = cs

/-- The line with this first word and these further tokens (R76, R77). -/
def readCommand (w : List Char) (ts : List Token) : Option Line :=
  if w = ['N', 'O', 'P'] then readEnd .nop ts
  else if w = ['S', 'T', 'E', 'P'] then readEnd .step ts
  else if w = ['S', 'T', 'E', 'P', '2'] then readEnd .step2 ts
  else if w = ['C', 'L', 'R', 'E', 'R', 'R'] then readEnd .clrerr ts
  else if w = ['R', 'E', 'S', 'E', 'T'] then readEnd .reset ts
  else if w = ['I', 'D', 'L', 'E'] then readEnd .idle ts
  else if w = ['S', 'E', 'E', 'D'] then (readSeedArgs ts).map .seed
  else
    match ts with
    | [.word a] =>
      if w = ['I', 'L', 'L', 'E', 'G', 'A', 'L'] then (readHex4 a).map .illegal
      else if w = ['S', 'T', 'E', 'P', 'N'] then (readNumber a).map .stepN
      else if w = ['S', 'T', 'E', 'P', '2', 'N'] then (readNumber a).map .step2N
      else if w = ['R', 'E', 'A', 'D'] then (readRegName a).map .read
      else none
    | _ => none

/-- The line of one text line; none for a line with nothing but a comment (log 12). -/
def parseLine (cs : List Char) : Except AsmError (Option Line) :=
  match lexLine cs [] with
  | [] => .ok none
  | .word w :: ts =>
    match readCommand w ts with
    | some l => .ok (some l)
    | none => .error .noSuchLine
  | _ :: _ => .error .noSuchLine

/-- The text lines of a program text; `line` is the one being read, last character first. -/
def splitLines : List Char → List Char → List (List Char)
  | [], line => [line.reverse]
  | ch :: cs, line => if ch = '\n' then line.reverse :: splitLines cs [] else splitLines cs (ch :: line)

/-- The lines of a list of text lines. -/
def parseLines : List (List Char) → Except AsmError (List Line)
  | [] => .ok []
  | t :: ts =>
    match parseLine t with
    | .error e => .error e
    | .ok l =>
      match parseLines ts with
      | .error e => .error e
      | .ok ls => .ok (l.toList ++ ls)

/-- The lines of a program text (R76). -/
def parseProgram (text : List Char) : Except AsmError (List Line) := parseLines (splitLines text [])

/-! ### From lines to text -/

/-- A hexadecimal digit as the spec writes it. -/
def hexDigit (d : Nat) : Char :=
  if d < 10 then Char.ofNat ('0'.toNat + d) else Char.ofNat ('A'.toNat + (d - 10))

/-- The lowest `k` hexadecimal digits of `n`, most significant first. -/
def hexDigits : Nat → Nat → List Char
  | 0, _ => []
  | k + 1, n => hexDigits k (n / 16) ++ [hexDigit (n % 16)]

/-- A value below `2^64` as `0x` and 16 digits. -/
def printNumber (n : Nat) : List Char := '0' :: 'x' :: hexDigits 16 n

/-- `name=v`. -/
def printArg (name : List Char) (n : Nat) : List Char := name ++ '=' :: printNumber n

/-- The arguments both builds have, each after a comma. -/
def printCommonArgs (x0 x1 c weyl : Nat) : List Char :=
  ',' :: printArg ['x', '0'] x0 ++ ',' :: printArg ['x', '1'] x1 ++ ',' :: printArg ['c'] c ++
    ',' :: printArg ['w', 'e', 'y', 'l'] weyl

/-- The arguments of a SEED line. -/
def printSeedArgs : SeedArgs → List Char
  | .w16 s0 s1 x0 x1 c weyl => printArg ['s', '0'] s0 ++ ',' :: printArg ['s', '1'] s1 ++ printCommonArgs x0 x1 c weyl
  | .w64 xsh x0 x1 c weyl => printArg ['x', 's', 'h'] xsh ++ printCommonArgs x0 x1 c weyl

/-- One line as text (R76, R77). -/
def printLine : Line → List Char
  | .nop => ['N', 'O', 'P']
  | .step => ['S', 'T', 'E', 'P']
  | .step2 => ['S', 'T', 'E', 'P', '2']
  | .clrerr => ['C', 'L', 'R', 'E', 'R', 'R']
  | .reset => ['R', 'E', 'S', 'E', 'T']
  | .idle => ['I', 'D', 'L', 'E']
  | .seed a => ['S', 'E', 'E', 'D', ' '] ++ printSeedArgs a
  | .illegal n => ['I', 'L', 'L', 'E', 'G', 'A', 'L', ' ', '0', 'x', hexDigit n.toNat]
  | .stepN n => ['S', 'T', 'E', 'P', 'N', ' '] ++ printNumber n
  | .step2N n => ['S', 'T', 'E', 'P', '2', 'N', ' '] ++ printNumber n
  | .read r => ['R', 'E', 'A', 'D', ' '] ++ RegName.letters r

end Sys2Proof.Machine
end

