-- ==== Sys2Proof/Machine/Readback.lean ====
section
/-! DEFINITION. What the host observes (00_scope.md R12): the readback port (10_state.md R33) and the output ports (20_memory.md
R51). Observations are functions of the state and change nothing (R34, R58). Of a state, they are what the ports show in the cycle
before that state's next edge (R236). While no register has a value every observation is a fault (R231; log 6). -/

namespace Sys2Proof.Machine

/-- The readback map, W = 16 (R33). -/
def readback16 (r : Regs Data16) (idx : Word4) : Word64 :=
  match idx.toNat with
  | 0 => r.data.gen.s0.setWidth 64
  | 1 => r.data.gen.s1.setWidth 64
  | 2 => r.data.gen.x0.setWidth 64
  | 3 => r.data.gen.x1.setWidth 64
  | 4 => r.data.gen.c.setWidth 64
  | 5 => r.data.gen.weyl.setWidth 64
  | 6 => r.data.out.setWidth 64
  | 7 => r.data.out32.setWidth 64
  | 8 => statusWord .w16 r
  | 9 => configWord .w16
  | _ => 0#64

/-- The readback map, W = 64 (R33). -/
def readback64 (r : Regs Data64) (idx : Word4) : Word64 :=
  match idx.toNat with
  | 0 => r.data.gen.xsh
  | 1 => 0#64
  | 2 => r.data.gen.x0.setWidth 64
  | 3 => r.data.gen.x1.setWidth 64
  | 4 => r.data.gen.c
  | 5 => r.data.gen.weyl
  | 6 => r.data.out
  | 7 => 0#64
  | 8 => statusWord .w64 r
  | 9 => configWord .w64
  | _ => 0#64

/-- `rd_data(state, rd_idx)` (R12, R33). -/
def State.readback (s : State) (idx : Word4) : Except Fault Word64 :=
  match s.block with
  | .w16 b =>
    match b.regs with
    | .undefined => .error .beforeReset
    | .defined r => .ok (readback16 r idx)
  | .w64 b =>
    match b.regs with
    | .undefined => .error .beforeReset
    | .defined r => .ok (readback64 r idx)

/-- The output ports (R51): `out32` and `out32_valid` are present in the W = 16 build only. -/
inductive Outputs where
  | w16 (rdData : Word64) (out : Word16) (outValid : Bool) (out32 : Word32) (out32Valid seedErr cmdErr : Bool)
  | w64 (rdData : Word64) (out : Word64) (outValid seedErr cmdErr : Bool)
deriving DecidableEq, Repr

/-- What every output port shows in the present cycle (R51, R236); `rd_data` follows `rd_idx` combinationally (R237). -/
def State.outputs (s : State) : Except Fault Outputs :=
  match s.block with
  | .w16 b =>
    match b.regs with
    | .undefined => .error .beforeReset
    | .defined r =>
      .ok (.w16 (readback16 r b.ports.ctl.rdIdx) r.data.out (outValid r) r.data.out32 (out32Valid .w16 r) r.seedErr r.cmdErr)
  | .w64 b =>
    match b.regs with
    | .undefined => .error .beforeReset
    | .defined r => .ok (.w64 (readback64 r b.ports.ctl.rdIdx) r.data.out (outValid r) r.seedErr r.cmdErr)

/-- The generator registers of a state, if they have a value: those of one build or of the other (R20, R21). -/
def State.generator (s : State) : Option (Gen16 ⊕ Gen64) :=
  match s.block with
  | .w16 b =>
    match b.regs with
    | .undefined => none
    | .defined r => some (.inl r.data.gen)
  | .w64 b =>
    match b.regs with
    | .undefined => none
    | .defined r => some (.inr r.data.gen)

/-- `OUTCNT` with the sticky bits, in the order OUTCNT, SEED_ERR, CMD_ERR, if they have a value (R30, R201). -/
def State.stickyBits (s : State) : Option (BitVec 2 × Bool × Bool) :=
  match s.block with
  | .w16 b =>
    match b.regs with
    | .undefined => none
    | .defined r => some (r.outcnt, r.seedErr, r.cmdErr)
  | .w64 b =>
    match b.regs with
    | .undefined => none
    | .defined r => some (r.outcnt, r.seedErr, r.cmdErr)

end Sys2Proof.Machine
end

