-- ==== Sys2Proof/Machine/Programs.lean ====
section
/-! DEFINITION. The host at work: driving an instance with a program (20_memory.md R60, 30_encoding.md R76, R77). -/

namespace Sys2Proof.Machine

/-- Drive these input ports in the present cycle; a W = 64 block has no such ports. -/
def State.drive16 (p : Ports Gen16) (s : State) : State :=
  match s.block with
  | .w16 b => { block := .w16 { b with ports := p } }
  | .w64 _ => s

/-- Drive these input ports in the present cycle; a W = 16 block has no such ports. -/
def State.drive64 (p : Ports Gen64) (s : State) : State :=
  match s.block with
  | .w16 _ => s
  | .w64 b => { block := .w64 { b with ports := p } }

/-- Do the host's actions in order: an edge is one step with those ports driven; an observation reads one register and changes
nothing (R77 `READ`). The answer is the last state and the values observed, in order. -/
def runActions {G : Type} (drive : Ports G → State → State) :
    List (Action G) → State → Host.Outcome (State × List Word64) Fault Refusal
  | [], s => .next (s, [])
  | .edge p :: as, s =>
    match step (drive p s) with
    | .next t => runActions drive as t
    | .fault r => .fault r
    | .refused r => .refused r
  | .observe idx :: as, s =>
    match s.readback idx with
    | .error r => .fault r
    | .ok v =>
      match runActions drive as s with
      | .next (t, vs) => .next (t, v :: vs)
      | .fault r => .fault r
      | .refused r => .refused r

/-- `n` edges, each with the inputs the state names, stopping at the first fault or refusal: the host's `Core.run` of this machine. -/
def runSteps : Nat → State → Result
  | 0, s => .next s
  | n + 1, s =>
    match step s with
    | .next t => runSteps n t
    | .fault r => .fault r
    | .refused r => .refused r

/-- An instance with a list of cycles before it: the first is the present one, the rest are pending (log 3, log 5). -/
def Built.withCycles {G D : Type} (b : Built G D) : List (Ports G) → Built G D
  | [] => { b with ports := { b.ports with ctl := b.ports.ctl.rest }, pending := [] }
  | p :: ps => { b with ports := p, pending := ps }

end Sys2Proof.Machine
end

