-- ==== Sys2Proof/Machine/Pseudocode.lean ====
section
/-! DEFINITION. The spec's own pseudocode, on natural numbers as R9 and R10 read it, written from the rules and apart from the
datapath of Datapath16.lean and Datapath64.lean. No step runs it: statements hold the datapath against it. -/

namespace Sys2Proof.Machine

/-- `trunc_N(v) = v mod 2^N` (R10). -/
def natTrunc (n v : Nat) : Nat := v % 2 ^ n

/-- `a << r = a * 2^r`, exact (R10). -/
def natShl (a r : Nat) : Nat := a * 2 ^ r

/-- `a >> r = floor(a / 2^r)` (R10). -/
def natShr (a r : Nat) : Nat := a / 2 ^ r

/-- `rotl_N(x, r)` (R10). -/
def natRotl (n x r : Nat) : Nat := natTrunc n (natShl x r) ||| natShr x (n - r)

/-- The six registers of the W = 16 step as numbers (R105). -/
structure NatGen16 where
  s0 : Nat
  s1 : Nat
  x0 : Nat
  x1 : Nat
  c : Nat
  weyl : Nat
deriving DecidableEq, Repr

/-- The five registers of the W = 64 step as numbers (R135). -/
structure NatGen64 where
  xsh : Nat
  x0 : Nat
  x1 : Nat
  c : Nat
  weyl : Nat
deriving DecidableEq, Repr

/-- What the registers hold, as numbers (R9). -/
def natGen16 (g : Gen16) : NatGen16 :=
  { s0 := g.s0.toNat, s1 := g.s1.toNat, x0 := g.x0.toNat, x1 := g.x1.toNat, c := g.c.toNat, weyl := g.weyl.toNat }

/-- What the registers hold, as numbers (R9). -/
def natGen64 (g : Gen64) : NatGen64 :=
  { xsh := g.xsh.toNat, x0 := g.x0.toNat, x1 := g.x1.toNat, c := g.c.toNat, weyl := g.weyl.toNat }

/-- The pseudocode of R101 to R103, in their order. -/
def natNext16 (g : NatGen16) : NatGen16 :=
  let s1a := g.s1 ^^^ g.s0
  let t := g.x0 + g.x1 + g.c
  { s0 := natRotl 16 g.s0 13 ^^^ s1a ^^^ natTrunc 16 (natShl s1a 5)
    s1 := natRotl 16 s1a 10
    x0 := t &&& 0xFFFF
    x1 := g.x0
    c := natShr t 16
    weyl := natTrunc 16 (g.weyl + 0x9E39) }

/-- The pseudocode of R104 on the post-step values. -/
def natOut16 (g : NatGen16) : Nat := natTrunc 16 (g.x0 + g.s0 + g.s1 + g.weyl)

/-- The pseudocode of R131 to R133, in their order. -/
def natNext64 (g : NatGen64) : NatGen64 :=
  let a := g.xsh ^^^ natTrunc 64 (natShl g.xsh 13)
  let b := a ^^^ natShr a 17
  let t := g.x0 + g.x1 + g.c
  { xsh := b ^^^ natTrunc 64 (natShl b 43)
    x0 := t &&& (2 ^ 55 - 1)
    x1 := g.x0
    c := natShr t 55
    weyl := natTrunc 64 (g.weyl + 0x9E3779B97F4A7C15) }

/-- The pseudocode of R134 on the post-step values. -/
def natOut64 (g : NatGen64) : Nat := natTrunc 64 ((natShl g.x0 9 ^^^ g.x1) + g.xsh + g.weyl)

end Sys2Proof.Machine
end

