-- ==== Sys2Proof/Safety.lean ====
section
/-! DEFINITION. What the claims call a legal state (10_state.md R36, with R28 and R29), what an edge does in their terms, and the
fold of commands that a run equals (20_memory.md R60). -/

namespace Sys2Proof.Machine

/-- The earlier output held in `OUT32` (R29): bits 31:16. -/
def highHalf (v : Word32) : Word16 := v.extractLsb' 16 16

/-- The later output held in `OUT32` (R29): bits 15:0. -/
def lowHalf (v : Word32) : Word16 := v.extractLsb' 0 16

/-- What holds of the W = 16 registers in every state a legal build reaches. -/
structure Legal16 (r : Regs Data16) : Prop where
  /-- Neither the xorshift nor the AWC state is all zero (R36, points 2 and 3). -/
  generator : degenerate16 r.data.gen = false
  /-- `OUTCNT` is 0, 1 or 2 (R36, point 4; R30). -/
  outcnt : r.outcnt.toNat ≤ 2
  /-- `OUT32` holds the latest output in its low half (R29). -/
  latest : lowHalf r.data.out32 = r.data.out
  /-- While `OUTCNT = 0`, `OUT` reads 0 (R28). -/
  noOutput : r.outcnt.toNat = 0 → r.data.out = 0#16
  /-- While `OUTCNT` is below 2, the high half of `OUT32` is 0 (R29). -/
  noPair : r.outcnt.toNat ≤ 1 → highHalf r.data.out32 = 0#16

/-- What holds of the W = 64 registers in every state a legal build reaches. -/
structure Legal64 (r : Regs Data64) : Prop where
  /-- Neither the xorshift nor the AWC state is all zero (R36, points 2 and 3). -/
  generator : degenerate64 r.data.gen = false
  /-- `OUTCNT` is 0, 1 or 2 (R36, point 4; R30). -/
  outcnt : r.outcnt.toNat ≤ 2
  /-- While `OUTCNT = 0`, `OUT` reads 0 (R28). -/
  noOutput : r.outcnt.toNat = 0 → r.data.out = 0#64

/-- A state of a block that exists (R233) and whose registers, where they have a value, are as R36, R28 and R29 say. -/
def State.Legal (s : State) : Prop :=
  match s.block with
  | .w16 b => degenerate16 b.params = false ∧ ∀ r, b.regs = .defined r → Legal16 r
  | .w64 b => degenerate64 b.params = false ∧ ∀ r, b.regs = .defined r → Legal64 r

/-- The registers of a state, whichever build it is. -/
def State.registers (s : State) : RegFile Data16 ⊕ RegFile Data64 :=
  match s.block with
  | .w16 b => .inl b.regs
  | .w64 b => .inr b.regs

/-- The reset parameters of a state, whichever build it is (R7). -/
def State.params (s : State) : Gen16 ⊕ Gen64 :=
  match s.block with
  | .w16 b => .inl b.params
  | .w64 b => .inr b.params

/-- The registers have a value: a reset edge has been seen since power-up (R231). -/
def State.isDefined (s : State) : Bool :=
  match s.block with
  | .w16 b => b.regs != .undefined
  | .w64 b => b.regs != .undefined

/-- The present edge executes the command `i` (R52). -/
def State.Executes (s : State) (i : Instr) : Prop := edgeKind s.control = .command ∧ fetch s = i

/-- The present edge is a reset edge (R52, R230). -/
def State.Resets (s : State) : Prop := edgeKind s.control = .reset

/-- The values on the seed ports are degenerate (R166). -/
def State.seedDegenerate (s : State) : Bool :=
  match s.block with
  | .w16 b => degenerate16 b.ports.seed
  | .w64 b => degenerate64 b.ports.seed

/-- The illegal commands (R73). -/
def illegalInstrs : List Instr :=
  [.illegalStep2W64, .illegal5, .illegal6, .illegal7, .illegal8, .illegal9, .illegalA, .illegalB, .illegalC, .illegalD,
    .illegalE, .illegalF]

/-- `exec(op)` on the W = 16 registers, written by opcode as R160 writes it. -/
def command16 (op : Word4) (seed : Gen16) (r : Regs Data16) : Regs Data16 :=
  if op = 0x0#4 then r
  else if op = 0x1#4 then doStep16 r
  else if op = 0x2#4 then doStep16 (doStep16 r)
  else if op = 0x3#4 then loadSeed16 seed r
  else if op = 0x4#4 then clearErrs r
  else setCmdErr r

/-- `exec(op)` on the W = 64 registers, written by opcode as R160 writes it. -/
def command64 (op : Word4) (seed : Gen64) (r : Regs Data64) : Regs Data64 :=
  if op = 0x0#4 then r
  else if op = 0x1#4 then doStep64 r
  else if op = 0x3#4 then loadSeed64 seed r
  else if op = 0x4#4 then clearErrs r
  else setCmdErr r

/-- Every number of a line is below `2^64`, the numbers `printLine` writes in full. -/
def Line.bounded : Line → Bool
  | .nop | .step | .step2 | .clrerr | .illegal _ | .reset | .idle | .read _ => true
  | .stepN n | .step2N n => decide (n < 2 ^ 64)
  | .seed (.w16 s0 s1 x0 x1 c weyl) =>
    decide (s0 < 2 ^ 64) && decide (s1 < 2 ^ 64) && decide (x0 < 2 ^ 64) && decide (x1 < 2 ^ 64) && decide (c < 2 ^ 64)
      && decide (weyl < 2 ^ 64)
  | .seed (.w64 xsh x0 x1 c weyl) =>
    decide (xsh < 2 ^ 64) && decide (x0 < 2 ^ 64) && decide (x1 < 2 ^ 64) && decide (c < 2 ^ 64) && decide (weyl < 2 ^ 64)

end Sys2Proof.Machine
end

