-- ==== Sys2Proof/Certificates/Slice0/Obligations.lean ====
section
/-! DEFINITION. The statements for the provers. Each docstring names the rule of spec/ it formalises. W = 16 and W = 64 stand as two
clauses of one statement where the rule covers both builds. "The registers have a value" is `b.regs = .defined r`: by R231 a
command means something only then. -/

open Sys2Proof Sys2Proof.Machine

/-! ### Decoding and encoding -/

/-- R72: the opcode map of both builds; every 4-bit value is one row of its build. -/
def Obligations.OpcodeMapDecodesEveryWord : Prop :=
  (∀ v : Variant,
    decode v 0b0000#4 = .nop ∧ decode v 0b0001#4 = .step ∧ decode v 0b0011#4 = .seed ∧ decode v 0b0100#4 = .clrerr ∧
    decode v 0b0101#4 = .illegal5 ∧ decode v 0b0110#4 = .illegal6 ∧ decode v 0b0111#4 = .illegal7 ∧
    decode v 0b1000#4 = .illegal8 ∧ decode v 0b1001#4 = .illegal9 ∧ decode v 0b1010#4 = .illegalA ∧
    decode v 0b1011#4 = .illegalB ∧ decode v 0b1100#4 = .illegalC ∧ decode v 0b1101#4 = .illegalD ∧
    decode v 0b1110#4 = .illegalE ∧ decode v 0b1111#4 = .illegalF) ∧
  decode .w16 0b0010#4 = .step2 ∧ decode .w64 0b0010#4 = .illegalStep2W64

/-- R72, R75: in every build, decoding an instruction of that build from its own word gives it back, and encoding what a word
decodes to gives the word back. -/
def Obligations.DecodeAndEncodeAgree : Prop :=
  (∀ i : Instr, Sys2Proof.Laws.RoundTrip.Statement i) ∧
  ∀ (v : Variant) (op : Word4), encode (decode v op) = op ∧ (decode v op).wf v = true

/-- R160: what a command does is settled by its word, in either build (log 10). -/
def Obligations.EqualWordsExecuteAlike : Prop :=
  ∀ (i j : Instr) (s : State), encode i = encode j → exec i s = exec j s

/-! ### The edge -/

/-- R52, R160, R205: an ordinary edge without reset that carries a valid command executes what the word decodes to, and the next
cycle begins (log 3). -/
def Obligations.StepRunsTheDecodedCommand : Prop :=
  ∀ s : State, s.control.cond = .normal → s.control.rst = false → s.control.cmdValid = true →
    step s = mapNext State.advance (exec (decode s.variant s.control.cmdOp) s)

/-- Logs 2 and 5: a word put on the command port is what the very next step runs, and nothing but the control inputs is touched. -/
def Obligations.DrivenWordIsExecutedNext : Prop :=
  ∀ (s : State) (w : Nat), w < 16 →
    step (s.withFetchWord 8 w) =
      mapNext State.advance (exec (decode s.variant (BitVec.ofNat 4 w)) (s.withFetchWord 8 w)) ∧
    (s.withFetchWord 8 w).registers = s.registers ∧ (s.withFetchWord 8 w).params = s.params

/-- R230, R205: at an edge with `rst = 1` every register takes its reset value, whatever the registers and the other inputs are. -/
def Obligations.ResetEdgeLoadsEveryRegister : Prop :=
  (∀ b : Built Gen16 Data16, b.ports.ctl.cond = .normal → b.ports.ctl.rst = true →
    ∃ t : Built Gen16 Data16, step ⟨.w16 b⟩ = .next ⟨.w16 t⟩ ∧ t.params = b.params ∧
      t.regs = .defined
        { data :=
            { gen :=
                { s0 := b.params.s0, s1 := b.params.s1, x0 := b.params.x0, x1 := b.params.x1, c := b.params.c,
                  weyl := b.params.weyl }
              out := 0#16
              out32 := 0#32 }
          outcnt := 0#2
          seedErr := false
          cmdErr := false }) ∧
  ∀ b : Built Gen64 Data64, b.ports.ctl.cond = .normal → b.ports.ctl.rst = true →
    ∃ t : Built Gen64 Data64, step ⟨.w64 b⟩ = .next ⟨.w64 t⟩ ∧ t.params = b.params ∧
      t.regs = .defined
        { data :=
            { gen :=
                { xsh := b.params.xsh, x0 := b.params.x0, x1 := b.params.x1, c := b.params.c, weyl := b.params.weyl }
              out := 0#64 }
          outcnt := 0#2
          seedErr := false
          cmdErr := false }

/-- R161: at an edge with `rst = 0` and `cmd_valid = 0` no register changes, whatever `cmd_op` and the seed ports hold; of all
commands only STEP, STEP2 and SEED can give another generator state. -/
def Obligations.IdleEdgeChangesNoRegister : Prop :=
  (∀ s : State, s.control.cond = .normal → s.control.rst = false → s.control.cmdValid = false →
    ∃ t : State, step s = .next t ∧ t.registers = s.registers ∧ t.params = s.params) ∧
  ∀ (i : Instr) (s t : State), i ≠ .step → i ≠ .step2 → i ≠ .illegalStep2W64 → i ≠ .seed → exec i s = .next t →
    t.generator = s.generator

/-- Log 3, the model's own: after an edge the first pending cycle is the present one; after the last, the host holds `rst` and
`cmd_valid` at 0. The reset parameters and registers are not touched by it. -/
def Obligations.NextCycleComesFromTheHost : Prop :=
  (∀ (b : Built Gen16 Data16) (p : Ports Gen16) (ps : List (Ports Gen16)), b.pending = p :: ps →
    State.advance ⟨.w16 b⟩ = ⟨.w16 { b with ports := p, pending := ps }⟩) ∧
  (∀ (b : Built Gen64 Data64) (p : Ports Gen64) (ps : List (Ports Gen64)), b.pending = p :: ps →
    State.advance ⟨.w64 b⟩ = ⟨.w64 { b with ports := p, pending := ps }⟩) ∧
  (∀ b : Built Gen16 Data16, b.pending = [] → edgeKind (State.advance ⟨.w16 b⟩).control = .idle) ∧
  (∀ b : Built Gen64 Data64, b.pending = [] → edgeKind (State.advance ⟨.w64 b⟩).control = .idle) ∧
  ∀ s : State, s.advance.registers = s.registers ∧ s.advance.params = s.params

/-- I14 and I2 (logs 8 and 9): an edge with unstable inputs is a fault, and a cycle in which power is lost leaves no register with
a value, whatever else the inputs are. -/
def Obligations.UnstableEdgeFaultsAndPowerLossUndefines : Prop :=
  (∀ s : State, s.control.cond = .unstable → step s = .fault .unstableInputs) ∧
  ∀ s : State, s.control.cond = .powerLost → ∃ t : State, step s = .next t ∧ t.isDefined = false ∧ t.params = s.params

/-! ### Before the first reset -/

/-- R231 and I1 in the model's reading (log 6, DEDUCED): while no register has a value, every command (NOP and the illegal ones too),
every readback (of `CONFIG`, which R32 calls hardwired, and of the reserved indices too) and every output observation is a fault.
That the fault covers every command and every index is the model's reading, not R231's own word. -/
def Obligations.NothingIsObservedBeforeReset : Prop :=
  ∀ s : State, s.isDefined = false →
    (∀ i : Instr, exec i s = .fault .beforeReset) ∧
    (∀ idx : Word4, s.readback idx = .error .beforeReset) ∧
    s.outputs = .error .beforeReset

/-- R231, R234: nothing but a reset edge gives the registers a value. -/
def Obligations.OnlyResetDefinesTheRegisters : Prop :=
  ∀ s t : State, s.isDefined = false → step s = .next t → t.isDefined = true → s.Resets

/-- R233: a build with degenerate reset parameters does not exist; any other does, and starts with nothing defined; the default
parameters of both builds pass. -/
def Obligations.DegenerateBuildsDoNotExist : Prop :=
  (∀ p : Gen16, (p.s0 = 0#16 ∧ p.s1 = 0#16) ∨ (p.x0 = 0#16 ∧ p.x1 = 0#16 ∧ p.c = 0#16) → build16 p = none) ∧
  (∀ p : Gen64, p.xsh = 0#64 ∨ (p.x0 = 0#55 ∧ p.x1 = 0#55 ∧ p.c = 0#64) → build64 p = none) ∧
  (∀ p : Gen16, ¬((p.s0 = 0#16 ∧ p.s1 = 0#16) ∨ (p.x0 = 0#16 ∧ p.x1 = 0#16 ∧ p.c = 0#16)) →
    ∃ s : State, build16 p = some s ∧ s.params = .inl p ∧ s.isDefined = false) ∧
  (∀ p : Gen64, ¬(p.xsh = 0#64 ∨ (p.x0 = 0#55 ∧ p.x1 = 0#55 ∧ p.c = 0#64)) →
    ∃ s : State, build64 p = some s ∧ s.params = .inr p ∧ s.isDefined = false) ∧
  build16 defaultParams16 ≠ none ∧ build64 defaultParams64 ≠ none

/-- R35, R7: the registers after reset of both default builds. That `State.reset` is the W = 16 one is the model's choice (log 1). -/
def Obligations.DefaultResetRegisters : Prop :=
  State.reset.registers =
    .inl (.defined
      { data :=
          { gen := { s0 := 0x223D#16, s1 := 0x10E1#16, x0 := 0x0003#16, x1 := 0x0002#16, c := 0x0001#16, weyl := 0x04D2#16 }
            out := 0#16
            out32 := 0#32 }
        outcnt := 0#2
        seedErr := false
        cmdErr := false }) ∧
  (State.reset64 defaultParams64).registers =
    .inr (.defined
      { data :=
          { gen :=
              { xsh := 0x0000000005397FB1#64, x0 := 0x3#55, x1 := 0x2#55, c := 0x1#64, weyl := 0x0000000000BC614E#64 }
            out := 0#64 }
        outcnt := 0#2
        seedErr := false
        cmdErr := false }) ∧
  (∀ p : Gen16, (State.reset16 p).readback 8#4 = .ok 0#64) ∧
  ∀ p : Gen64, (State.reset64 p).readback 8#4 = .ok 0#64

/-! ### The commands -/

/-- R162: NOP, `op = 0x0` in both builds, leaves any state. -/
def Obligations.NopChangesNothing : Prop :=
  (∀ v : Variant, decode v 0x0#4 = .nop) ∧
  ∀ s : State, s.isDefined = true → exec .nop s = .next s

/-- R163, R105, R135: STEP takes the generator registers and the output through the pseudocode of the rules, on natural numbers;
`OUT32` packs the old and the new output; `OUTCNT` counts to 2; the error bits, the parameters and the ports stay. -/
def Obligations.StepRunsTheGeneratorOnce : Prop :=
  (∀ v : Variant, decode v 0x1#4 = .step) ∧
  (∀ (b : Built Gen16 Data16) (r : Regs Data16), b.regs = .defined r →
    ∃ r' : Regs Data16, exec .step ⟨.w16 b⟩ = .next ⟨.w16 { b with regs := .defined r' }⟩ ∧
      natGen16 r'.data.gen = natNext16 (natGen16 r.data.gen) ∧
      r'.data.out.toNat = natOut16 (natNext16 (natGen16 r.data.gen)) ∧
      r'.data.out32.toNat = r.data.out.toNat * 2 ^ 16 + natOut16 (natNext16 (natGen16 r.data.gen)) ∧
      r'.outcnt.toNat = min (r.outcnt.toNat + 1) 2 ∧ r'.seedErr = r.seedErr ∧ r'.cmdErr = r.cmdErr ∧
      outValid r' = true ∧ out32Valid .w16 r' = decide (1 ≤ r.outcnt.toNat)) ∧
  ∀ (b : Built Gen64 Data64) (r : Regs Data64), b.regs = .defined r →
    ∃ r' : Regs Data64, exec .step ⟨.w64 b⟩ = .next ⟨.w64 { b with regs := .defined r' }⟩ ∧
      natGen64 r'.data.gen = natNext64 (natGen64 r.data.gen) ∧
      r'.data.out.toNat = natOut64 (natNext64 (natGen64 r.data.gen)) ∧
      r'.outcnt.toNat = min (r.outcnt.toNat + 1) 2 ∧ r'.seedErr = r.seedErr ∧ r'.cmdErr = r.cmdErr ∧
      outValid r' = true ∧ out32Valid .w64 r' = false

/-- R164: STEP2 in the W = 16 build is two steps in one command: `OUT` is the second output, `OUT32` the first and the second,
`OUTCNT` is 2. That it equals two STEPs in every register is the spec's inference: R164 marks that sentence "[derived: from this rule
and rule R163]". -/
def Obligations.Step2RunsTheGeneratorTwice : Prop :=
  decode .w16 0x2#4 = .step2 ∧ decode .w64 0x2#4 = .illegalStep2W64 ∧
  ∀ (b : Built Gen16 Data16) (r : Regs Data16), b.regs = .defined r →
    (∃ r' : Regs Data16, exec .step2 ⟨.w16 b⟩ = .next ⟨.w16 { b with regs := .defined r' }⟩ ∧
      natGen16 r'.data.gen = natNext16 (natNext16 (natGen16 r.data.gen)) ∧
      r'.data.out.toNat = natOut16 (natNext16 (natNext16 (natGen16 r.data.gen))) ∧
      r'.data.out32.toNat =
        natOut16 (natNext16 (natGen16 r.data.gen)) * 2 ^ 16 + natOut16 (natNext16 (natNext16 (natGen16 r.data.gen))) ∧
      r'.outcnt.toNat = 2 ∧ r'.seedErr = r.seedErr ∧ r'.cmdErr = r.cmdErr ∧
      outValid r' = true ∧ out32Valid .w16 r' = true) ∧
    ∃ u : State, exec .step ⟨.w16 b⟩ = .next u ∧ exec .step2 ⟨.w16 b⟩ = exec .step u

/-- R165, R166: a SEED whose xorshift part or AWC part is all zero sets `SEED_ERR` and changes nothing else; any other loads every
generator register from its port, clears `OUT`, `OUT32` and `OUTCNT`, and keeps the error bits. -/
def Obligations.SeedLoadsOrRefuses : Prop :=
  (∀ v : Variant, decode v 0x3#4 = .seed) ∧
  (∀ (b : Built Gen16 Data16) (r : Regs Data16), b.regs = .defined r →
    ((b.ports.seed.s0 = 0#16 ∧ b.ports.seed.s1 = 0#16) ∨
        (b.ports.seed.x0 = 0#16 ∧ b.ports.seed.x1 = 0#16 ∧ b.ports.seed.c = 0#16) →
      exec .seed ⟨.w16 b⟩ = .next ⟨.w16 { b with regs := .defined { r with seedErr := true } }⟩) ∧
    (¬((b.ports.seed.s0 = 0#16 ∧ b.ports.seed.s1 = 0#16) ∨
        (b.ports.seed.x0 = 0#16 ∧ b.ports.seed.x1 = 0#16 ∧ b.ports.seed.c = 0#16)) →
      exec .seed ⟨.w16 b⟩ = .next ⟨.w16
        { b with
          regs := .defined
            { data := { gen := b.ports.seed, out := 0#16, out32 := 0#32 }
              outcnt := 0#2
              seedErr := r.seedErr
              cmdErr := r.cmdErr } }⟩)) ∧
  ∀ (b : Built Gen64 Data64) (r : Regs Data64), b.regs = .defined r →
    (b.ports.seed.xsh = 0#64 ∨ (b.ports.seed.x0 = 0#55 ∧ b.ports.seed.x1 = 0#55 ∧ b.ports.seed.c = 0#64) →
      exec .seed ⟨.w64 b⟩ = .next ⟨.w64 { b with regs := .defined { r with seedErr := true } }⟩) ∧
    (¬(b.ports.seed.xsh = 0#64 ∨ (b.ports.seed.x0 = 0#55 ∧ b.ports.seed.x1 = 0#55 ∧ b.ports.seed.c = 0#64)) →
      exec .seed ⟨.w64 b⟩ = .next ⟨.w64
        { b with
          regs := .defined
            { data := { gen := b.ports.seed, out := 0#64 }
              outcnt := 0#2
              seedErr := r.seedErr
              cmdErr := r.cmdErr } }⟩)

/-- R167: CLRERR clears both sticky bits and changes nothing else. -/
def Obligations.ClrerrClearsBothErrorBits : Prop :=
  (∀ v : Variant, decode v 0x4#4 = .clrerr) ∧
  (∀ (b : Built Gen16 Data16) (r : Regs Data16), b.regs = .defined r →
    exec .clrerr ⟨.w16 b⟩ = .next ⟨.w16 { b with regs := .defined { r with seedErr := false, cmdErr := false } }⟩) ∧
  ∀ (b : Built Gen64 Data64) (r : Regs Data64), b.regs = .defined r →
    exec .clrerr ⟨.w64 b⟩ = .next ⟨.w64 { b with regs := .defined { r with seedErr := false, cmdErr := false } }⟩

/-- R168, R73: each of the reserved words `0x5` to `0xF`, and `0x2` in the W = 64 build, sets `CMD_ERR` and changes nothing else. -/
def Obligations.IllegalCommandsSetOnlyCmdErr : Prop :=
  (∀ (v : Variant) (op : Word4), 5 ≤ op.toNat → decode v op ∈ illegalInstrs ∧ decode v op ≠ .illegalStep2W64) ∧
  decode .w64 0x2#4 = .illegalStep2W64 ∧
  (∀ (i : Instr) (b : Built Gen16 Data16) (r : Regs Data16), i ∈ illegalInstrs → i ≠ .illegalStep2W64 → b.regs = .defined r →
    exec i ⟨.w16 b⟩ = .next ⟨.w16 { b with regs := .defined { r with cmdErr := true } }⟩) ∧
  ∀ (i : Instr) (b : Built Gen64 Data64) (r : Regs Data64), i ∈ illegalInstrs → b.regs = .defined r →
    exec i ⟨.w64 b⟩ = .next ⟨.w64 { b with regs := .defined { r with cmdErr := true } }⟩

/-- R160, R235: every command completes at its edge, in every state whose registers have a value; parameters, ports and what is
pending are as before. -/
def Obligations.EveryCommandCompletes : Prop :=
  (∀ (i : Instr) (b : Built Gen16 Data16) (r : Regs Data16), b.regs = .defined r →
    ∃ r' : Regs Data16, exec i ⟨.w16 b⟩ = .next ⟨.w16 { b with regs := .defined r' }⟩) ∧
  ∀ (i : Instr) (b : Built Gen64 Data64) (r : Regs Data64), b.regs = .defined r →
    ∃ r' : Regs Data64, exec i ⟨.w64 b⟩ = .next ⟨.w64 { b with regs := .defined r' }⟩

/-! ### Whole-machine rules -/

/-- R36 with R28 and R29, as an invariant: a step from a legal state leads to a legal state. -/
def Obligations.EveryStepKeepsTheStateLegal : Prop :=
  ∀ s t : State, s.Legal → step s = .next t → t.Legal

/-- R36, R233: every build that exists is legal from power-up and right after reset. -/
def Obligations.ExistingBuildsStartLegal : Prop :=
  (∀ (p : Gen16) (s : State), build16 p = some s → s.Legal ∧ (State.reset16 p).Legal) ∧
  (∀ (p : Gen64) (s : State), build64 p = some s → s.Legal ∧ (State.reset64 p).Legal) ∧
  State.reset.Legal

/-- R36: whatever the host does, a block that exists stays legal for as long as it runs. -/
def Obligations.EveryRunStaysLegal : Prop :=
  ∀ (n : Nat) (s t : State), s.Legal → runSteps n s = .next t → t.Legal

/-- R2, R7: no step changes the build, neither its variant nor its reset parameters. -/
def Obligations.TheBuildNeverChanges : Prop :=
  ∀ s t : State, step s = .next t → t.variant = s.variant ∧ t.params = s.params

/-- R202, R203, R201: only an illegal command sets `CMD_ERR`, only a SEED with a degenerate seed sets `SEED_ERR`, and only CLRERR
and reset clear either. -/
def Obligations.ErrorBitsAreSticky : Prop :=
  ∀ (s t : State) (n n' : BitVec 2) (se ce se' ce' : Bool),
    step s = .next t → s.stickyBits = some (n, se, ce) → t.stickyBits = some (n', se', ce') →
      (ce = false → ce' = true → ∃ i ∈ illegalInstrs, s.Executes i) ∧
      (se = false → se' = true → s.Executes .seed ∧ s.seedDegenerate = true) ∧
      (ce = true → ce' = false → s.Executes .clrerr ∨ s.Resets) ∧
      (se = true → se' = false → s.Executes .clrerr ∨ s.Resets)

/-- R21: the generator registers change only by reset, by STEP and STEP2, and by an accepted SEED. -/
def Obligations.GeneratorChangesOnlyByStepSeedOrReset : Prop :=
  ∀ (s t : State) (g g' : Gen16 ⊕ Gen64), step s = .next t → s.generator = some g → t.generator = some g' → g' ≠ g →
    s.Resets ∨ s.Executes .step ∨ s.Executes .step2 ∨ (s.Executes .seed ∧ s.seedDegenerate = false)

/-- R53: at an edge that does not execute SEED, the values on the seed ports make no difference to any register. -/
def Obligations.SeedPortsMatterOnlyToSeed : Prop :=
  (∀ (b : Built Gen16 Data16) (g : Gen16) (t : State), ¬State.Executes ⟨.w16 b⟩ .seed → step ⟨.w16 b⟩ = .next t →
    ∃ t' : State, step ⟨.w16 { b with ports := { b.ports with seed := g } }⟩ = .next t' ∧ t'.registers = t.registers) ∧
  ∀ (b : Built Gen64 Data64) (g : Gen64) (t : State), ¬State.Executes ⟨.w64 b⟩ .seed → step ⟨.w64 b⟩ = .next t →
    ∃ t' : State, step ⟨.w64 { b with ports := { b.ports with seed := g } }⟩ = .next t' ∧ t'.registers = t.registers

/-- R60, R160: after a list of commands, one an edge, the registers are the fold of `exec(op)` over the list, and every readback is
of them. The list stands in the model's own schedule (log 3). -/
def Obligations.RunOfCommandsIsTheirFold : Prop :=
  (∀ (cmds : List (Word4 × Gen16)) (b : Built Gen16 Data16) (r : Regs Data16), b.regs = .defined r →
    ∃ t : Built Gen16 Data16,
      runSteps cmds.length ⟨.w16 (b.withCycles (cmds.map fun c => commandPorts c.1 c.2))⟩ =
        .next ⟨.w16 t⟩ ∧
      t.regs = .defined (cmds.foldl (fun q c => command16 c.1 c.2 q) r) ∧ t.params = b.params ∧
      ∀ idx : Word4, State.readback ⟨.w16 t⟩ idx = .ok (readback16 (cmds.foldl (fun q c => command16 c.1 c.2 q) r) idx)) ∧
  ∀ (cmds : List (Word4 × Gen64)) (b : Built Gen64 Data64) (r : Regs Data64), b.regs = .defined r →
    ∃ t : Built Gen64 Data64,
      runSteps cmds.length ⟨.w64 (b.withCycles (cmds.map fun c => commandPorts c.1 c.2))⟩ =
        .next ⟨.w64 t⟩ ∧
      t.regs = .defined (cmds.foldl (fun q c => command64 c.1 c.2 q) r) ∧ t.params = b.params ∧
      ∀ idx : Word4, State.readback ⟨.w64 t⟩ idx = .ok (readback64 (cmds.foldl (fun q c => command64 c.1 c.2 q) r) idx)

/-! ### The datapath -/

/-- R102: the sum is exact: the new `X0` and `C` are its remainder and quotient by `2^16`, the new `X1` is the old `X0`; the carry is
at most 2, and at most 1 when it was. That `awc16` has exactly two fixed points is the spec's inference: R102 marks those sentences
"[derived: ...]". -/
def Obligations.Awc16IsExact : Prop :=
  ∀ x0 x1 c : Word16,
    (awc16 x0 x1 c).2.2.toNat * 2 ^ 16 + (awc16 x0 x1 c).1.toNat = x0.toNat + x1.toNat + c.toNat ∧
    (awc16 x0 x1 c).2.1 = x0 ∧
    (awc16 x0 x1 c).2.2.toNat ≤ 2 ∧
    (c.toNat ≤ 1 → (awc16 x0 x1 c).2.2.toNat ≤ 1) ∧
    (awc16 x0 x1 c = (x0, x1, c) ↔
      (x0 = 0#16 ∧ x1 = 0#16 ∧ c = 0#16) ∨ (x0 = 0xFFFF#16 ∧ x1 = 0xFFFF#16 ∧ c = 1#16))

/-- R132: likewise with `2^55`: the carry is at most 513, and at most 1 when it was. That there are exactly two fixed points is the
spec's inference: R132 marks that sentence "[derived: as in 40_step_w16.md rule R102 with `2^55`]". -/
def Obligations.Awc55IsExact : Prop :=
  ∀ (x0 x1 : Word55) (c : Word64),
    (awc55 x0 x1 c).2.2.toNat * 2 ^ 55 + (awc55 x0 x1 c).1.toNat = x0.toNat + x1.toNat + c.toNat ∧
    (awc55 x0 x1 c).2.1 = x0 ∧
    (awc55 x0 x1 c).2.2.toNat ≤ 513 ∧
    (c.toNat ≤ 1 → (awc55 x0 x1 c).2.2.toNat ≤ 1) ∧
    (awc55 x0 x1 c = (x0, x1, c) ↔
      (x0 = 0#55 ∧ x1 = 0#55 ∧ c = 0#64) ∨
      (x0 = 0x007FFFFFFFFFFFFF#55 ∧ x1 = 0x007FFFFFFFFFFFFF#55 ∧ c = 1#64))

/-- R36, point 3: the only predecessor of the all-zero AWC state is that state itself, in both builds. -/
def Obligations.AwcZeroComesOnlyFromZero : Prop :=
  (∀ x0 x1 c : Word16, awc16 x0 x1 c = (0#16, 0#16, 0#16) ↔ x0 = 0#16 ∧ x1 = 0#16 ∧ c = 0#16) ∧
  ∀ (x0 x1 : Word55) (c : Word64), awc55 x0 x1 c = (0#55, 0#55, 0#64) ↔ x0 = 0#55 ∧ x1 = 0#55 ∧ c = 0#64

/-- R101, R36: the 16-bit xorshift is linear over GF(2) and one-to-one, so a non-zero state never becomes zero. -/
def Obligations.Xorshift16IsLinearAndInjective : Prop :=
  (∀ s0 s1 u0 u1 : Word16,
    xs16 (s0 ^^^ u0) (s1 ^^^ u1) = ((xs16 s0 s1).1 ^^^ (xs16 u0 u1).1, (xs16 s0 s1).2 ^^^ (xs16 u0 u1).2)) ∧
  ∀ s0 s1 u0 u1 : Word16, xs16 s0 s1 = xs16 u0 u1 → s0 = u0 ∧ s1 = u1

/-- R131, R36: the 64-bit xorshift is linear over GF(2) and one-to-one. -/
def Obligations.Xorshift64IsLinearAndInjective : Prop :=
  (∀ x y : Word64, xs64 (x ^^^ y) = xs64 x ^^^ xs64 y) ∧ ∀ x y : Word64, xs64 x = xs64 y → x = y

/-- R103, R133: the Weyl word comes back to a value after exactly the multiples of `2^W` steps, so it visits every value. -/
def Obligations.WeylHasFullPeriod : Prop :=
  (∀ (w : Word16) (n : Nat), weyl16^[n] w = w ↔ 2 ^ 16 ∣ n) ∧
  ∀ (w : Word64) (n : Nat), weyl64^[n] w = w ↔ 2 ^ 64 ∣ n

/-- R26, R36: from `C` at most 1, every command but SEED leaves `C` at most 1, in both builds (log 11). -/
def Obligations.CarryStaysAtMostOne : Prop :=
  (∀ (i : Instr) (b : Built Gen16 Data16) (r r' : Regs Data16), i ≠ .seed → b.regs = .defined r → r.data.gen.c.toNat ≤ 1 →
    exec i ⟨.w16 b⟩ = .next ⟨.w16 { b with regs := .defined r' }⟩ → r'.data.gen.c.toNat ≤ 1) ∧
  ∀ (i : Instr) (b : Built Gen64 Data64) (r r' : Regs Data64), i ≠ .seed → b.regs = .defined r → r.data.gen.c.toNat ≤ 1 →
    exec i ⟨.w64 b⟩ = .next ⟨.w64 { b with regs := .defined r' }⟩ → r'.data.gen.c.toNat ≤ 1

/-- R8: the AWC sums fit 18 and 66 bits, so no rule needs to truncate them. -/
def Obligations.AwcSumsFitTheirWidths : Prop :=
  (∀ x0 x1 c : Word16, awcSum16 x0 x1 c < 2 ^ 18) ∧ ∀ (x0 x1 : Word55) (c : Word64), awcSum55 x0 x1 c < 2 ^ 66

/-! ### Observation -/

/-- R33: the readback map of both builds, register by register, each zero-extended to 64 bits; reserved indices read 0. -/
def Obligations.ReadbackMap : Prop :=
  (∀ (b : Built Gen16 Data16) (r : Regs Data16), b.regs = .defined r →
    ∃ rd : Word4 → Word64, (∀ idx : Word4, State.readback ⟨.w16 b⟩ idx = .ok (rd idx)) ∧
      (rd 0#4).toNat = r.data.gen.s0.toNat ∧ (rd 1#4).toNat = r.data.gen.s1.toNat ∧
      (rd 2#4).toNat = r.data.gen.x0.toNat ∧ (rd 3#4).toNat = r.data.gen.x1.toNat ∧
      (rd 4#4).toNat = r.data.gen.c.toNat ∧ (rd 5#4).toNat = r.data.gen.weyl.toNat ∧
      (rd 6#4).toNat = r.data.out.toNat ∧ (rd 7#4).toNat = r.data.out32.toNat ∧
      rd 8#4 = statusWord .w16 r ∧ rd 9#4 = configWord .w16 ∧ ∀ idx : Word4, 10 ≤ idx.toNat → rd idx = 0#64) ∧
  ∀ (b : Built Gen64 Data64) (r : Regs Data64), b.regs = .defined r →
    ∃ rd : Word4 → Word64, (∀ idx : Word4, State.readback ⟨.w64 b⟩ idx = .ok (rd idx)) ∧
      (rd 0#4).toNat = r.data.gen.xsh.toNat ∧ rd 1#4 = 0#64 ∧
      (rd 2#4).toNat = r.data.gen.x0.toNat ∧ (rd 3#4).toNat = r.data.gen.x1.toNat ∧
      (rd 4#4).toNat = r.data.gen.c.toNat ∧ (rd 5#4).toNat = r.data.gen.weyl.toNat ∧
      (rd 6#4).toNat = r.data.out.toNat ∧ rd 7#4 = 0#64 ∧
      rd 8#4 = statusWord .w64 r ∧ rd 9#4 = configWord .w64 ∧ ∀ idx : Word4, 10 ≤ idx.toNat → rd idx = 0#64

/-- R31: the bits of `STATUS`; in the W = 64 build bit 1 is always 0; bits 63:4 are 0. -/
def Obligations.StatusBits : Prop :=
  (∀ r : Regs Data16,
    (statusWord .w16 r).getLsbD 0 = decide (1 ≤ r.outcnt.toNat) ∧
    (statusWord .w16 r).getLsbD 1 = decide (r.outcnt.toNat = 2) ∧
    (statusWord .w16 r).getLsbD 2 = r.seedErr ∧ (statusWord .w16 r).getLsbD 3 = r.cmdErr ∧
    ∀ i : Nat, 4 ≤ i → (statusWord .w16 r).getLsbD i = false) ∧
  ∀ r : Regs Data64,
    (statusWord .w64 r).getLsbD 0 = decide (1 ≤ r.outcnt.toNat) ∧
    (statusWord .w64 r).getLsbD 1 = false ∧
    (statusWord .w64 r).getLsbD 2 = r.seedErr ∧ (statusWord .w64 r).getLsbD 3 = r.cmdErr ∧
    ∀ i : Nat, 4 ≤ i → (statusWord .w64 r).getLsbD i = false

/-- R32: `CONFIG` is `0x101010` in the W = 16 build and `0x403740` in the W = 64 build, `W` in bits 7:0, `A` in 15:8 and `CW` in
23:16, and reads so at index 9 whatever the registers hold. -/
def Obligations.ConfigIdentifiesTheVariant : Prop :=
  configWord .w16 = 0x101010#64 ∧ configWord .w64 = 0x403740#64 ∧
  (∀ v : Variant, (configWord v).toNat % 2 ^ 8 = widthW v ∧ (configWord v).toNat / 2 ^ 8 % 2 ^ 8 = widthA v ∧
    (configWord v).toNat / 2 ^ 16 % 2 ^ 8 = widthCW v ∧ (configWord v).toNat / 2 ^ 24 = 0) ∧
  ∀ s : State, s.isDefined = true → s.readback 9#4 = .ok (configWord s.variant)

/-- R51: what each output port shows, and that no output depends on `rst`, `cmd_valid`, `cmd_op` or the seed ports. -/
def Obligations.OutputPortsShowTheRegisters : Prop :=
  (∀ (b : Built Gen16 Data16) (r : Regs Data16), b.regs = .defined r →
    ∃ rd : Word64, State.readback ⟨.w16 b⟩ b.ports.ctl.rdIdx = .ok rd ∧
      State.outputs ⟨.w16 b⟩ =
        .ok (.w16 rd r.data.out ((statusWord .w16 r).getLsbD 0) r.data.out32 ((statusWord .w16 r).getLsbD 1) r.seedErr
          r.cmdErr)) ∧
  (∀ (b : Built Gen64 Data64) (r : Regs Data64), b.regs = .defined r →
    ∃ rd : Word64, State.readback ⟨.w64 b⟩ b.ports.ctl.rdIdx = .ok rd ∧
      State.outputs ⟨.w64 b⟩ = .ok (.w64 rd r.data.out ((statusWord .w64 r).getLsbD 0) r.seedErr r.cmdErr)) ∧
  (∀ (b : Built Gen16 Data16) (p : Ports Gen16), p.ctl.rdIdx = b.ports.ctl.rdIdx →
    State.outputs ⟨.w16 { b with ports := p }⟩ = State.outputs ⟨.w16 b⟩) ∧
  ∀ (b : Built Gen64 Data64) (p : Ports Gen64), p.ctl.rdIdx = b.ports.ctl.rdIdx →
    State.outputs ⟨.w64 { b with ports := p }⟩ = State.outputs ⟨.w64 b⟩

/-- R34, R58, R237: `rd_idx` has no effect on the registers. With any other `rd_idx` in the present cycle a step answers a state with the
same registers, or the same fault; a readback is a function of the registers and the index, the same in two states with equal
registers; and across an edge without command, reset or power loss every index reads the same. Both builds. -/
def Obligations.ReadIndexChangesNoRegister : Prop :=
  (∀ (s t : State) (idx : Word4), step s = .next t →
    ∃ t' : State, step (s.withControl fun c => { c with rdIdx := idx }) = .next t' ∧ t'.registers = t.registers) ∧
  (∀ (s : State) (r : Fault) (idx : Word4), step s = .fault r →
    step (s.withControl fun c => { c with rdIdx := idx }) = .fault r) ∧
  (∀ (s t : State) (idx : Word4), s.registers = t.registers → s.readback idx = t.readback idx) ∧
  ∀ (s t : State) (idx : Word4), edgeKind s.control = .idle → step s = .next t → t.readback idx = s.readback idx

/-! ### The assembler -/

/-- R76: printing a line and reading the text back gives the line, for every line with its numbers below `2^64`. What is printed is
the model's choice (log 12); what is read is the grammar. -/
def Obligations.AssemblerReadsBackPrintedLines : Prop :=
  ∀ l : Line, Line.bounded l = true → parseLine (printLine l) = .ok (some l)

/-- R76: each mnemonic assembles to one edge with `rst = 0`, `cmd_valid = 1` and its `op` of R72; SEED's arguments are driven
exactly as written, a value that does not fit its port is an error; `ILLEGAL 0xN` assembles to `op = N`. -/
def Obligations.MnemonicsAssembleToTheirWords : Prop :=
  (∀ spare : Gen16,
    assembleLine .w16 seedOf16 spare .nop = .ok [.edge (commandPorts 0x0#4 spare)] ∧
    assembleLine .w16 seedOf16 spare .step = .ok [.edge (commandPorts 0x1#4 spare)] ∧
    assembleLine .w16 seedOf16 spare .step2 = .ok [.edge (commandPorts 0x2#4 spare)] ∧
    assembleLine .w16 seedOf16 spare .clrerr = .ok [.edge (commandPorts 0x4#4 spare)] ∧
    ∀ n : Word4, assembleLine .w16 seedOf16 spare (.illegal n) = .ok [.edge (commandPorts n spare)]) ∧
  (∀ spare : Gen64,
    assembleLine .w64 seedOf64 spare .nop = .ok [.edge (commandPorts 0x0#4 spare)] ∧
    assembleLine .w64 seedOf64 spare .step = .ok [.edge (commandPorts 0x1#4 spare)] ∧
    assembleLine .w64 seedOf64 spare .step2 = .ok [.edge (commandPorts 0x2#4 spare)] ∧
    assembleLine .w64 seedOf64 spare .clrerr = .ok [.edge (commandPorts 0x4#4 spare)] ∧
    ∀ n : Word4, assembleLine .w64 seedOf64 spare (.illegal n) = .ok [.edge (commandPorts n spare)]) ∧
  (∀ (op : Word4) (g : Gen16), edgeKind (commandPorts op g).ctl = .command ∧ (commandPorts op g).ctl.cmdOp = op ∧
    (commandPorts op g).seed = g) ∧
  (∀ (op : Word4) (g : Gen64), edgeKind (commandPorts op g).ctl = .command ∧ (commandPorts op g).ctl.cmdOp = op ∧
    (commandPorts op g).seed = g) ∧
  (∀ spare g : Gen16,
    assembleLine .w16 seedOf16 spare
        (.seed (.w16 g.s0.toNat g.s1.toNat g.x0.toNat g.x1.toNat g.c.toNat g.weyl.toNat)) =
      .ok [.edge (commandPorts 0x3#4 g)]) ∧
  (∀ spare g : Gen64,
    assembleLine .w64 seedOf64 spare (.seed (.w64 g.xsh.toNat g.x0.toNat g.x1.toNat g.c.toNat g.weyl.toNat)) =
      .ok [.edge (commandPorts 0x3#4 g)]) ∧
  (∀ (spare : Gen16) (s0 s1 x0 x1 c weyl : Nat),
    2 ^ 16 ≤ s0 ∨ 2 ^ 16 ≤ s1 ∨ 2 ^ 16 ≤ x0 ∨ 2 ^ 16 ≤ x1 ∨ 2 ^ 16 ≤ c ∨ 2 ^ 16 ≤ weyl →
      assembleLine .w16 seedOf16 spare (.seed (.w16 s0 s1 x0 x1 c weyl)) = .error .valueTooWide) ∧
  ∀ (spare : Gen64) (xsh x0 x1 c weyl : Nat),
    2 ^ 64 ≤ xsh ∨ 2 ^ 55 ≤ x0 ∨ 2 ^ 55 ≤ x1 ∨ 2 ^ 64 ≤ c ∨ 2 ^ 64 ≤ weyl →
      assembleLine .w64 seedOf64 spare (.seed (.w64 xsh x0 x1 c weyl)) = .error .valueTooWide

/-- R77, R33: the expansions of the pseudo-instructions, in both builds: RESET is one reset edge, IDLE one idle edge, `STEPN n` is n
lines of STEP, `STEP2N n` is n lines of STEP2 in W = 16 and refused in W = 64, and READ drives no edge and observes the index R33 gives
the register, or is refused where the build has no such register. -/
def Obligations.PseudoInstructionsExpand : Prop :=
  (∀ spare : Gen16,
    (∃ p : Ports Gen16, assembleLine .w16 seedOf16 spare .reset = .ok [.edge p] ∧ edgeKind p.ctl = .reset) ∧
    (∃ p : Ports Gen16, assembleLine .w16 seedOf16 spare .idle = .ok [.edge p] ∧ edgeKind p.ctl = .idle) ∧
    (∀ n : Nat, assemble .w16 seedOf16 spare [.stepN n] = assemble .w16 seedOf16 spare (List.replicate n .step)) ∧
    (∀ n : Nat, assemble .w16 seedOf16 spare [.step2N n] = assemble .w16 seedOf16 spare (List.replicate n .step2)) ∧
    (∀ e ∈ [(RegName.s0, 0#4), (.s1, 1#4), (.x0, 2#4), (.x1, 3#4), (.c, 4#4), (.weyl, 5#4), (.out, 6#4), (.out32, 7#4),
        (.status, 8#4), (.config, 9#4)],
      assembleLine .w16 seedOf16 spare (.read e.1) = .ok [.observe e.2]) ∧
    assembleLine .w16 seedOf16 spare (.read .xsh) = .error .noSuchRegister) ∧
  ∀ spare : Gen64,
    (∃ p : Ports Gen64, assembleLine .w64 seedOf64 spare .reset = .ok [.edge p] ∧ edgeKind p.ctl = .reset) ∧
    (∃ p : Ports Gen64, assembleLine .w64 seedOf64 spare .idle = .ok [.edge p] ∧ edgeKind p.ctl = .idle) ∧
    (∀ n : Nat, assemble .w64 seedOf64 spare [.stepN n] = assemble .w64 seedOf64 spare (List.replicate n .step)) ∧
    (∀ n : Nat, assemble .w64 seedOf64 spare [.step2N n] = .error .onlyW16) ∧
    (∀ e ∈ [(RegName.xsh, 0#4), (.x0, 2#4), (.x1, 3#4), (.c, 4#4), (.weyl, 5#4), (.out, 6#4), (.status, 8#4),
        (.config, 9#4)],
      assembleLine .w64 seedOf64 spare (.read e.1) = .ok [.observe e.2]) ∧
    ∀ name ∈ [RegName.s0, .s1, .out32], assembleLine .w64 seedOf64 spare (.read name) = .error .noSuchRegister

/-- R76, R77, I8: the assembler of a build takes a line exactly when it is a line of that build: a SEED of the build's own arguments,
each fitting its port; `STEP2N` in W = 16 only; `READ` of a register the build has. -/
def Obligations.AssemblerTakesExactlyTheBuildsLines : Prop :=
  (∀ (spare : Gen16) (l : Line), (∃ as : List (Action Gen16), assembleLine .w16 seedOf16 spare l = .ok as) ↔ l.wf .w16 = true) ∧
  ∀ (spare : Gen64) (l : Line), (∃ as : List (Action Gen64), assembleLine .w64 seedOf64 spare l = .ok as) ↔ l.wf .w64 = true
end

