-- ==== Sys2Proof/Laws/Assembler.lean ====
section
/-! SUPPORT. The assembler's words and numbers: a word without separators is read as one word, and a printed number is read back. -/

namespace Sys2Proof.Machine

/-- The characters that end a word of a line. -/
def isSeparator (c : Char) : Bool := c = '#' || c = ' ' || c = '\t' || c = '\r' || c = ',' || c = '='

theorem lexLine_word (w : List Char) :
    ∀ rest acc : List Char, (∀ c ∈ w, isSeparator c = false) → lexLine (w ++ rest) acc = lexLine rest (w.reverse ++ acc) := by
  induction w with
  | nil => intro rest acc _; rfl
  | cons c cs ih =>
    intro rest acc h
    have hc := h c (by simp)
    simp only [isSeparator, Bool.or_eq_false_iff, decide_eq_false_iff_not] at hc
    simp only [List.cons_append, lexLine, hc, if_false, or_self]
    rw [ih _ _ fun d hd => h d (by simp [hd])]
    simp

theorem hexDigit_reads (d : Fin 16) :
    isSeparator (hexDigit d.val) = false ∧ digitValue (hexDigit d.val) = some d.val := by
  revert d
  decide

theorem hexDigits_no_separator (k : Nat) : ∀ n, ∀ c ∈ hexDigits k n, isSeparator c = false := by
  induction k with
  | zero => intro n c h; cases h
  | succ k ih =>
    intro n c h
    simp only [hexDigits, List.mem_append, List.mem_singleton] at h
    rcases h with h | rfl
    · exact ih _ _ h
    · exact (hexDigit_reads ⟨n % 16, by omega⟩).1

theorem readDigits_append (base : Nat) (xs ys : List Char) :
    ∀ acc, readDigits base (xs ++ ys) acc = (readDigits base xs acc).bind (readDigits base ys) := by
  induction xs with
  | nil => intro acc; rfl
  | cons x xs ih =>
    intro acc
    simp only [List.cons_append, readDigits]
    cases digitValue x with
    | none => rfl
    | some d => dsimp only; split <;> simp [*]

theorem readDigits_hexDigits (k : Nat) :
    ∀ n acc, n < 16 ^ k → readDigits 16 (hexDigits k n) acc = some (acc * 16 ^ k + n) := by
  induction k with
  | zero => intro n acc h; simp at h; simp [hexDigits, readDigits, h]
  | succ k ih =>
    intro n acc h
    have hd := (hexDigit_reads ⟨n % 16, by omega⟩).2
    simp only at hd
    rw [hexDigits, readDigits_append, ih _ _ (by rw [Nat.pow_succ] at h; omega)]
    simp only [Option.bind_some, readDigits, hd]
    rw [if_pos (by omega), Nat.pow_succ, Nat.add_mul, Nat.mul_assoc, Option.some_inj]
    have := Nat.div_add_mod n 16
    omega

theorem readNumber_printNumber (n : Nat) (h : n < 2 ^ 64) : readNumber (printNumber n) = some n := by
  have e : readNumber (printNumber n) = readDigits 16 (hexDigits 16 n) 0 := by
    cases hd : hexDigits 16 n with
    | nil => simp [hexDigits] at hd
    | cons d ds => unfold printNumber; rw [hd]; rfl
  rw [e, readDigits_hexDigits 16 n 0 (by omega)]
  simp

theorem printNumber_no_separator (n : Nat) : ∀ c ∈ printNumber n, isSeparator c = false := by
  intro c hc
  simp only [printNumber, List.mem_cons] at hc
  rcases hc with rfl | rfl | hc
  · decide
  · decide
  · exact hexDigits_no_separator _ _ _ hc

end Sys2Proof.Machine
end

