-- ==== Sys2Proof/Laws/State.lean ====
section
/-! SUPPORT. Small lemmas, all true by unfolding one definition: what each operation does to each field, so that no later proof
unfolds a record update. -/

namespace Sys2Proof.Machine

/-! ### Projections of a state by its build -/

@[simp] theorem variant_w16 (b : Built Gen16 Data16) : State.variant ⟨.w16 b⟩ = .w16 := rfl
@[simp] theorem variant_w64 (b : Built Gen64 Data64) : State.variant ⟨.w64 b⟩ = .w64 := rfl
@[simp] theorem control_w16 (b : Built Gen16 Data16) : State.control ⟨.w16 b⟩ = b.ports.ctl := rfl
@[simp] theorem control_w64 (b : Built Gen64 Data64) : State.control ⟨.w64 b⟩ = b.ports.ctl := rfl
@[simp] theorem registers_w16 (b : Built Gen16 Data16) : State.registers ⟨.w16 b⟩ = .inl b.regs := rfl
@[simp] theorem registers_w64 (b : Built Gen64 Data64) : State.registers ⟨.w64 b⟩ = .inr b.regs := rfl
@[simp] theorem params_w16 (b : Built Gen16 Data16) : State.params ⟨.w16 b⟩ = .inl b.params := rfl
@[simp] theorem params_w64 (b : Built Gen64 Data64) : State.params ⟨.w64 b⟩ = .inr b.params := rfl
@[simp] theorem seedDegenerate_w16 (b : Built Gen16 Data16) :
    State.seedDegenerate ⟨.w16 b⟩ = degenerate16 b.ports.seed := rfl
@[simp] theorem seedDegenerate_w64 (b : Built Gen64 Data64) :
    State.seedDegenerate ⟨.w64 b⟩ = degenerate64 b.ports.seed := rfl
@[simp] theorem resetEdge_w16 (b : Built Gen16 Data16) :
    State.resetEdge ⟨.w16 b⟩ = ⟨.w16 { b with regs := .defined (resetRegs16 b.params) }⟩ := rfl
@[simp] theorem resetEdge_w64 (b : Built Gen64 Data64) :
    State.resetEdge ⟨.w64 b⟩ = ⟨.w64 { b with regs := .defined (resetRegs64 b.params) }⟩ := rfl
@[simp] theorem powerUp_w16 (b : Built Gen16 Data16) :
    State.powerUp ⟨.w16 b⟩ = ⟨.w16 { b with regs := .undefined }⟩ := rfl
@[simp] theorem powerUp_w64 (b : Built Gen64 Data64) :
    State.powerUp ⟨.w64 b⟩ = ⟨.w64 { b with regs := .undefined }⟩ := rfl
@[simp] theorem advance_w16 (b : Built Gen16 Data16) : State.advance ⟨.w16 b⟩ = ⟨.w16 b.advance⟩ := rfl
@[simp] theorem advance_w64 (b : Built Gen64 Data64) : State.advance ⟨.w64 b⟩ = ⟨.w64 b.advance⟩ := rfl
@[simp] theorem withControl_w16 (f : Control → Control) (b : Built Gen16 Data16) :
    State.withControl f ⟨.w16 b⟩ = ⟨.w16 { b with ports := { b.ports with ctl := f b.ports.ctl } }⟩ := rfl
@[simp] theorem withControl_w64 (f : Control → Control) (b : Built Gen64 Data64) :
    State.withControl f ⟨.w64 b⟩ = ⟨.w64 { b with ports := { b.ports with ctl := f b.ports.ctl } }⟩ := rfl

/-! ### The move to the next cycle -/

section Advance
variable {G D : Type} (b : Built G D)

@[simp] theorem advance_regs : b.advance.regs = b.regs := by
  unfold Built.advance; cases b.pending <;> rfl
@[simp] theorem advance_params : b.advance.params = b.params := by
  unfold Built.advance; cases b.pending <;> rfl

end Advance

@[simp] theorem rest_cond (c : Control) : c.rest.cond = .normal := rfl
@[simp] theorem rest_rst (c : Control) : c.rest.rst = false := rfl
@[simp] theorem rest_cmdValid (c : Control) : c.rest.cmdValid = false := rfl
@[simp] theorem rest_cmdOp (c : Control) : c.rest.cmdOp = c.cmdOp := rfl
@[simp] theorem rest_rdIdx (c : Control) : c.rest.rdIdx = c.rdIdx := rfl

/-! ### Outcomes -/

@[simp] theorem mapNext_next (f : State → State) (s : State) : mapNext f (.next s) = .next (f s) := rfl
@[simp] theorem mapNext_fault (f : State → State) (r : Fault) : mapNext f (.fault r) = .fault r := rfl
@[simp] theorem mapNext_refused (f : State → State) (r : Refusal) : mapNext f (.refused r) = .refused r := rfl

/-- A mapped outcome is a next state only if the outcome was one. -/
theorem mapNext_eq_next {f : State → State} {o : Result} {t : State} :
    mapNext f o = .next t ↔ ∃ s, o = .next s ∧ f s = t := by
  cases o <;> simp

/-! ### The sticky bits -/

section Sticky
variable {D : Type} (r : Regs D)

@[simp] theorem setSeedErr_data : (setSeedErr r).data = r.data := rfl
@[simp] theorem setSeedErr_outcnt : (setSeedErr r).outcnt = r.outcnt := rfl
@[simp] theorem setSeedErr_seedErr : (setSeedErr r).seedErr = true := rfl
@[simp] theorem setSeedErr_cmdErr : (setSeedErr r).cmdErr = r.cmdErr := rfl
@[simp] theorem setCmdErr_data : (setCmdErr r).data = r.data := rfl
@[simp] theorem setCmdErr_outcnt : (setCmdErr r).outcnt = r.outcnt := rfl
@[simp] theorem setCmdErr_seedErr : (setCmdErr r).seedErr = r.seedErr := rfl
@[simp] theorem setCmdErr_cmdErr : (setCmdErr r).cmdErr = true := rfl
@[simp] theorem clearErrs_data : (clearErrs r).data = r.data := rfl
@[simp] theorem clearErrs_outcnt : (clearErrs r).outcnt = r.outcnt := rfl
@[simp] theorem clearErrs_seedErr : (clearErrs r).seedErr = false := rfl
@[simp] theorem clearErrs_cmdErr : (clearErrs r).cmdErr = false := rfl

end Sticky

/-! ### Reset -/

@[simp] theorem resetRegs16_gen (p : Gen16) : (resetRegs16 p).data.gen = p := rfl
@[simp] theorem resetRegs16_out (p : Gen16) : (resetRegs16 p).data.out = 0#16 := rfl
@[simp] theorem resetRegs16_out32 (p : Gen16) : (resetRegs16 p).data.out32 = 0#32 := rfl
@[simp] theorem resetRegs16_outcnt (p : Gen16) : (resetRegs16 p).outcnt = 0#2 := rfl
@[simp] theorem resetRegs16_seedErr (p : Gen16) : (resetRegs16 p).seedErr = false := rfl
@[simp] theorem resetRegs16_cmdErr (p : Gen16) : (resetRegs16 p).cmdErr = false := rfl
@[simp] theorem resetRegs64_gen (p : Gen64) : (resetRegs64 p).data.gen = p := rfl
@[simp] theorem resetRegs64_out (p : Gen64) : (resetRegs64 p).data.out = 0#64 := rfl
@[simp] theorem resetRegs64_outcnt (p : Gen64) : (resetRegs64 p).outcnt = 0#2 := rfl
@[simp] theorem resetRegs64_seedErr (p : Gen64) : (resetRegs64 p).seedErr = false := rfl
@[simp] theorem resetRegs64_cmdErr (p : Gen64) : (resetRegs64 p).cmdErr = false := rfl

/-! ### One generator step -/

@[simp] theorem doStep16_gen (r : Regs Data16) : (doStep16 r).data.gen = nextGen16 r.data.gen := rfl
@[simp] theorem doStep16_out (r : Regs Data16) : (doStep16 r).data.out = (step16 r.data.gen).2 := rfl
@[simp] theorem doStep16_out32 (r : Regs Data16) :
    (doStep16 r).data.out32 = pack32 r.data.out (step16 r.data.gen).2 := rfl
@[simp] theorem doStep16_outcnt (r : Regs Data16) : (doStep16 r).outcnt = bumpOutcnt r.outcnt := rfl
@[simp] theorem doStep16_seedErr (r : Regs Data16) : (doStep16 r).seedErr = r.seedErr := rfl
@[simp] theorem doStep16_cmdErr (r : Regs Data16) : (doStep16 r).cmdErr = r.cmdErr := rfl
@[simp] theorem doStep64_gen (r : Regs Data64) : (doStep64 r).data.gen = nextGen64 r.data.gen := rfl
@[simp] theorem doStep64_out (r : Regs Data64) : (doStep64 r).data.out = (step64 r.data.gen).2 := rfl
@[simp] theorem doStep64_outcnt (r : Regs Data64) : (doStep64 r).outcnt = bumpOutcnt r.outcnt := rfl
@[simp] theorem doStep64_seedErr (r : Regs Data64) : (doStep64 r).seedErr = r.seedErr := rfl
@[simp] theorem doStep64_cmdErr (r : Regs Data64) : (doStep64 r).cmdErr = r.cmdErr := rfl

/-! ### SEED -/

@[simp] theorem seedOperands_eq {G : Type} (p : Ports G) : seedOperands p = p.seed := rfl

theorem loadSeed16_refused {seed : Gen16} (h : degenerate16 seed = true) (r : Regs Data16) :
    loadSeed16 seed r = setSeedErr r := by simp [loadSeed16, h]
theorem loadSeed16_accepted {seed : Gen16} (h : degenerate16 seed = false) (r : Regs Data16) :
    loadSeed16 seed r = { r with data := { gen := seed, out := 0#16, out32 := 0#32 }, outcnt := 0#2 } := by
  simp [loadSeed16, h]
theorem loadSeed64_refused {seed : Gen64} (h : degenerate64 seed = true) (r : Regs Data64) :
    loadSeed64 seed r = setSeedErr r := by simp [loadSeed64, h]
theorem loadSeed64_accepted {seed : Gen64} (h : degenerate64 seed = false) (r : Regs Data64) :
    loadSeed64 seed r = { r with data := { gen := seed, out := 0#64 }, outcnt := 0#2 } := by
  simp [loadSeed64, h]

end Sys2Proof.Machine
end

