-- ==== Sys2Proof/Laws/Ops.lean ====
section
/-! SUPPORT. What each shared operation can do, said once: the frame of a command, the effect of a decoded command on the registers
of its build, the five kinds of edge, and the values of the counter and the packed register. -/

namespace Sys2Proof.Machine

/-! ### The frame of a command -/

theorem onRegs_w16 {f16 : Ports Gen16 → Regs Data16 → Regs Data16} {f64 : Ports Gen64 → Regs Data64 → Regs Data64}
    {b : Built Gen16 Data16} {r : Regs Data16} (h : b.regs = .defined r) :
    onRegs f16 f64 ⟨.w16 b⟩ = .next ⟨.w16 { b with regs := .defined (f16 b.ports r) }⟩ := by
  simp [onRegs, h]

theorem onRegs_w64 {f16 : Ports Gen16 → Regs Data16 → Regs Data16} {f64 : Ports Gen64 → Regs Data64 → Regs Data64}
    {b : Built Gen64 Data64} {r : Regs Data64} (h : b.regs = .defined r) :
    onRegs f16 f64 ⟨.w64 b⟩ = .next ⟨.w64 { b with regs := .defined (f64 b.ports r) }⟩ := by
  simp [onRegs, h]

theorem onRegs_w16_undefined {f16 : Ports Gen16 → Regs Data16 → Regs Data16}
    {f64 : Ports Gen64 → Regs Data64 → Regs Data64} {b : Built Gen16 Data16} (h : b.regs = .undefined) :
    onRegs f16 f64 ⟨.w16 b⟩ = .fault .beforeReset := by
  simp [onRegs, h]

theorem onRegs_w64_undefined {f16 : Ports Gen16 → Regs Data16 → Regs Data16}
    {f64 : Ports Gen64 → Regs Data64 → Regs Data64} {b : Built Gen64 Data64} (h : b.regs = .undefined) :
    onRegs f16 f64 ⟨.w64 b⟩ = .fault .beforeReset := by
  simp [onRegs, h]

/-- Everything the frame can do when it answers a next state. -/
theorem onRegs_cases {f16 : Ports Gen16 → Regs Data16 → Regs Data16} {f64 : Ports Gen64 → Regs Data64 → Regs Data64}
    {s t : State} (h : onRegs f16 f64 s = .next t) :
    (∃ b r, s = ⟨.w16 b⟩ ∧ b.regs = .defined r ∧ t = ⟨.w16 { b with regs := .defined (f16 b.ports r) }⟩) ∨
    (∃ b r, s = ⟨.w64 b⟩ ∧ b.regs = .defined r ∧ t = ⟨.w64 { b with regs := .defined (f64 b.ports r) }⟩) := by
  obtain ⟨b | b⟩ := s
  · cases hr : b.regs with
    | undefined => rw [onRegs_w16_undefined hr] at h; cases h
    | defined r => rw [onRegs_w16 hr] at h; cases h; exact .inl ⟨b, r, rfl, hr, rfl⟩
  · cases hr : b.regs with
    | undefined => rw [onRegs_w64_undefined hr] at h; cases h
    | defined r => rw [onRegs_w64 hr] at h; cases h; exact .inr ⟨b, r, rfl, hr, rfl⟩

/-! ### The effect of a command -/

/-- What an instruction does to the W = 16 registers, read off `exec`. -/
def effect16 (i : Instr) (seed : Gen16) (r : Regs Data16) : Regs Data16 := command16 (encode i) seed r

/-- What an instruction does to the W = 64 registers, read off `exec`. -/
def effect64 (i : Instr) (seed : Gen64) (r : Regs Data64) : Regs Data64 := command64 (encode i) seed r

/-- Every instruction is one frame around the register effect of its opcode. -/
theorem exec_eq_onRegs (i : Instr) :
    exec i = onRegs (fun p r => effect16 i p.seed r) (fun p r => effect64 i p.seed r) := by
  cases i <;> rfl

/-- Every instruction, on W = 16 registers that have a value: the register effect of its opcode, and nothing else. -/
theorem exec_w16 (i : Instr) {b : Built Gen16 Data16} {r : Regs Data16} (h : b.regs = .defined r) :
    exec i ⟨.w16 b⟩ = .next ⟨.w16 { b with regs := .defined (effect16 i b.ports.seed r) }⟩ := by
  rw [exec_eq_onRegs, onRegs_w16 h]

/-- Every instruction, on W = 64 registers that have a value: the register effect of its opcode, and nothing else. -/
theorem exec_w64 (i : Instr) {b : Built Gen64 Data64} {r : Regs Data64} (h : b.regs = .defined r) :
    exec i ⟨.w64 b⟩ = .next ⟨.w64 { b with regs := .defined (effect64 i b.ports.seed r) }⟩ := by
  rw [exec_eq_onRegs, onRegs_w64 h]

theorem exec_w16_undefined (i : Instr) {b : Built Gen16 Data16} (h : b.regs = .undefined) :
    exec i ⟨.w16 b⟩ = .fault .beforeReset := by
  rw [exec_eq_onRegs, onRegs_w16_undefined h]

theorem exec_w64_undefined (i : Instr) {b : Built Gen64 Data64} (h : b.regs = .undefined) :
    exec i ⟨.w64 b⟩ = .fault .beforeReset := by
  rw [exec_eq_onRegs, onRegs_w64_undefined h]

/-- Everything a command can do when it answers a next state: the registers of its build had a value and take the effect of the
opcode; parameters, ports and what is pending stay. -/
theorem exec_cases {i : Instr} {s t : State} (h : exec i s = .next t) :
    (∃ b r, s = ⟨.w16 b⟩ ∧ b.regs = .defined r ∧ t = ⟨.w16 { b with regs := .defined (effect16 i b.ports.seed r) }⟩) ∨
    (∃ b r, s = ⟨.w64 b⟩ ∧ b.regs = .defined r ∧ t = ⟨.w64 { b with regs := .defined (effect64 i b.ports.seed r) }⟩) := by
  rw [exec_eq_onRegs] at h
  exact onRegs_cases h

/-- The effect of the word at the port is `exec(op)` of R160, W = 16: decoding and encoding cancel. -/
theorem effect16_decode (op : Word4) (seed : Gen16) (r : Regs Data16) :
    effect16 (decode .w16 op) seed r = command16 op seed r := by
  have h : encode (decode .w16 op) = op := by revert op; decide
  simp [effect16, h]

/-- The effect of the word at the port is `exec(op)` of R160, W = 64. -/
theorem effect64_decode (op : Word4) (seed : Gen64) (r : Regs Data64) :
    effect64 (decode .w64 op) seed r = command64 op seed r := by
  have h : encode (decode .w64 op) = op := by revert op; decide
  simp [effect64, h]

/-! ### The edge -/

/-- Everything one edge can do when it answers a next state. -/
theorem step_cases {s t : State} (h : step s = .next t) :
    (edgeKind s.control = .powerLoss ∧ t = s.powerUp.advance) ∨
    (edgeKind s.control = .reset ∧ t = s.resetEdge.advance) ∨
    (edgeKind s.control = .command ∧ ∃ u, exec (fetch s) s = .next u ∧ t = u.advance) ∨
    (edgeKind s.control = .idle ∧ t = s.advance) := by
  unfold step at h
  cases hk : edgeKind s.control <;> rw [hk] at h
  case unstable => cases h
  case powerLoss => cases h; exact .inl ⟨rfl, rfl⟩
  case reset => cases h; exact .inr (.inl ⟨rfl, rfl⟩)
  case command =>
    obtain ⟨u, hu, rfl⟩ := mapNext_eq_next.mp h
    exact .inr (.inr (.inl ⟨rfl, u, hu, rfl⟩))
  case idle => cases h; exact .inr (.inr (.inr ⟨rfl, rfl⟩))

theorem edgeKind_reset {c : Control} (hc : c.cond = .normal) (hr : c.rst = true) : edgeKind c = .reset := by
  simp [edgeKind, hc, hr]

theorem edgeKind_command {c : Control} (hc : c.cond = .normal) (hr : c.rst = false) (hv : c.cmdValid = true) :
    edgeKind c = .command := by
  simp [edgeKind, hc, hr, hv]

theorem edgeKind_idle {c : Control} (hc : c.cond = .normal) (hr : c.rst = false) (hv : c.cmdValid = false) :
    edgeKind c = .idle := by
  simp [edgeKind, hc, hr, hv]

/-! ### The next cycle and observation -/

theorem advance_pending {G D : Type} {b : Built G D} {p : Ports G} {ps : List (Ports G)} (h : b.pending = p :: ps) :
    b.advance = { b with ports := p, pending := ps } := by
  simp [Built.advance, h]

theorem advance_nothing_pending {G D : Type} {b : Built G D} (h : b.pending = []) :
    b.advance = { b with ports := { b.ports with ctl := b.ports.ctl.rest } } := by
  simp [Built.advance, h]

theorem readback_w16 {b : Built Gen16 Data16} {r : Regs Data16} (h : b.regs = .defined r) (idx : Word4) :
    State.readback ⟨.w16 b⟩ idx = .ok (readback16 r idx) := by
  simp [State.readback, h]

theorem readback_w64 {b : Built Gen64 Data64} {r : Regs Data64} (h : b.regs = .defined r) (idx : Word4) :
    State.readback ⟨.w64 b⟩ idx = .ok (readback64 r idx) := by
  simp [State.readback, h]

/-! ### Runs -/

@[simp] theorem runSteps_zero (s : State) : runSteps 0 s = .next s := rfl

theorem runSteps_next {n : Nat} {s t : State} (h : step s = .next t) : runSteps (n + 1) s = runSteps n t := by
  simp [runSteps, h]

/-- A run of one more step that answers a next state went through one. -/
theorem runSteps_cases {n : Nat} {s t : State} (h : runSteps (n + 1) s = .next t) :
    ∃ u, step s = .next u ∧ runSteps n u = .next t := by
  unfold runSteps at h
  cases hs : step s with
  | next u => rw [hs] at h; exact ⟨u, rfl, h⟩
  | fault r => rw [hs] at h; cases h
  | refused r => rw [hs] at h; cases h

theorem coreRun_next (M : Host.Core) {n : Nat} {s t : M.State} (h : M.step s = .next t) :
    M.run (n + 1) s = M.run n t := by
  simp [Host.Core.run, h]

theorem coreRun_fault (M : Host.Core) {n : Nat} {s : M.State} {r : M.Fault} (h : M.step s = .fault r) :
    M.run (n + 1) s = .fault r := by
  simp [Host.Core.run, h]

theorem coreRun_refused (M : Host.Core) {n : Nat} {s : M.State} {r : M.Refusal} (h : M.step s = .refused r) :
    M.run (n + 1) s = .refused r := by
  simp [Host.Core.run, h]

/-- `runSteps` is the host's run of this machine. -/
theorem coreRun_eq_runSteps (n : Nat) : ∀ s : State, Host.Core.run Sys2Proof.core n s = runSteps n s := by
  induction n with
  | zero => intro s; rfl
  | succ n ih =>
    intro s
    cases hs : step s with
    | next t => rw [runSteps_next hs, ← ih t]; exact coreRun_next Sys2Proof.core hs
    | fault r => rw [runSteps, hs]; exact coreRun_fault Sys2Proof.core hs
    | refused r => rw [runSteps, hs]; exact coreRun_refused Sys2Proof.core hs

/-! ### The counter and the packed register -/

@[simp] theorem bumpOutcnt_toNat (n : BitVec 2) : (bumpOutcnt n).toNat = min (n.toNat + 1) 2 := by
  revert n; decide

@[simp] theorem pack32_toNat (a b : Word16) : (pack32 a b).toNat = a.toNat * 2 ^ 16 + b.toNat := by
  have h : a.toNat <<< 16 ||| b.toNat = a.toNat * 2 ^ 16 + b.toNat := by
    rw [← Nat.shiftLeft_add_eq_or_of_lt b.isLt, Nat.shiftLeft_eq]
  show (a ++ b : BitVec (16 + 16)).toNat = _
  rw [BitVec.toNat_append, h]

end Sys2Proof.Machine
end

