-- ==== Sys2Proof/Laws/Datapath.lean ====
section
/-! SUPPORT. One lemma per function of the datapath: its result as a natural number, and the degenerate predicate as the spec writes
it. Where a width is 55 or 64 the lemmas rewrite with named facts only, so that no proof computes with a large power. -/

namespace Sys2Proof.Machine

/-! ### The degenerate predicate (R166) -/

theorem degenerate16_iff (g : Gen16) :
    degenerate16 g = true ↔ (g.s0 = 0#16 ∧ g.s1 = 0#16) ∨ (g.x0 = 0#16 ∧ g.x1 = 0#16 ∧ g.c = 0#16) := by
  simp [degenerate16, xorshiftZero16, awcZero16, and_assoc]

theorem degenerate64_iff (g : Gen64) :
    degenerate64 g = true ↔ g.xsh = 0#64 ∨ (g.x0 = 0#55 ∧ g.x1 = 0#55 ∧ g.c = 0#64) := by
  simp [degenerate64, xorshiftZero64, awcZero64, and_assoc]

/-! ### The AWC sub-step (R102, R132) -/

theorem awc16_x0_toNat (x0 x1 c : Word16) : (awc16 x0 x1 c).1.toNat = (x0.toNat + x1.toNat + c.toNat) % 2 ^ 16 := by
  show (BitVec.ofNat 16 (x0.toNat + x1.toNat + c.toNat)).toNat = _
  rw [BitVec.toNat_ofNat]

@[simp] theorem awc16_x1 (x0 x1 c : Word16) : (awc16 x0 x1 c).2.1 = x0 := rfl

theorem awc16_c_toNat (x0 x1 c : Word16) : (awc16 x0 x1 c).2.2.toNat = (x0.toNat + x1.toNat + c.toNat) / 2 ^ 16 := by
  have h0 := x0.isLt
  have h1 := x1.isLt
  have h2 := c.isLt
  show (BitVec.ofNat 16 ((x0.toNat + x1.toNat + c.toNat) >>> 16)).toNat = _
  rw [BitVec.toNat_ofNat, Nat.shiftRight_eq_div_pow, Nat.mod_eq_of_lt]
  omega

theorem awc55_x0_toNat (x0 x1 : Word55) (c : Word64) :
    (awc55 x0 x1 c).1.toNat = (x0.toNat + x1.toNat + c.toNat) % 2 ^ 55 := by
  show (BitVec.ofNat 55 (x0.toNat + x1.toNat + c.toNat)).toNat = _
  rw [BitVec.toNat_ofNat]

@[simp] theorem awc55_x1 (x0 x1 : Word55) (c : Word64) : (awc55 x0 x1 c).2.1 = x0 := rfl

theorem awc55_c_toNat (x0 x1 : Word55) (c : Word64) :
    (awc55 x0 x1 c).2.2.toNat = (x0.toNat + x1.toNat + c.toNat) / 2 ^ 55 := by
  have h0 := x0.isLt
  have h1 := x1.isLt
  have h2 := c.isLt
  show (BitVec.ofNat 64 ((x0.toNat + x1.toNat + c.toNat) >>> 55)).toNat = _
  rw [BitVec.toNat_ofNat, Nat.shiftRight_eq_div_pow, Nat.mod_eq_of_lt]
  omega

/-! ### The xorshift, Weyl and output sub-steps -/

theorem rotl16_toNat (x : Word16) (r : Nat) : (rotl16 x r).toNat = natRotl 16 x.toNat r := by
  simp [rotl16, natRotl, natTrunc, natShl, natShr, Nat.shiftLeft_eq, Nat.shiftRight_eq_div_pow]

theorem xs64_toNat (x : Word64) :
    (xs64 x).toNat =
      (let a := x.toNat ^^^ natTrunc 64 (natShl x.toNat 13)
       let b := a ^^^ natShr a 17
       b ^^^ natTrunc 64 (natShl b 43)) := by
  simp [xs64, xs64A, xs64B, xs64C, natTrunc, natShl, natShr, BitVec.toNat_xor, Nat.shiftLeft_eq,
    Nat.shiftRight_eq_div_pow]

theorem weyl16_toNat (w : Word16) : (weyl16 w).toNat = natTrunc 16 (w.toNat + 0x9E39) := by
  rw [weyl16, BitVec.toNat_add]
  rfl

theorem weyl64_toNat (w : Word64) : (weyl64 w).toNat = natTrunc 64 (w.toNat + 0x9E3779B97F4A7C15) := by
  rw [weyl64, BitVec.toNat_add]
  rfl

theorem out64Mix_toNat (x0 x1 : Word55) : (out64Mix x0 x1).toNat = natShl x0.toNat 9 ^^^ x1.toNat := by
  have h0 := x0.isLt
  have h1 := x1.isLt
  rw [out64Mix, BitVec.toNat_xor, BitVec.toNat_shiftLeft, BitVec.toNat_setWidth, BitVec.toNat_setWidth, natShl,
    Nat.shiftLeft_eq, Nat.mod_eq_of_lt (a := x0.toNat), Nat.mod_eq_of_lt (a := x1.toNat), Nat.mod_eq_of_lt] <;> omega

theorem out64_toNat (xsh : Word64) (x0 x1 : Word55) (weyl : Word64) :
    (out64 xsh x0 x1 weyl).toNat =
      natTrunc 64 ((natShl x0.toNat 9 ^^^ x1.toNat) + xsh.toNat + weyl.toNat) := by
  rw [out64, BitVec.toNat_add, BitVec.toNat_add, out64Mix_toNat, Nat.mod_add_mod, natTrunc]

/-! ### The halves of `OUT32` (R29, R106) -/

@[simp] theorem lowHalf_pack32 (a b : Word16) : lowHalf (pack32 a b) = b := by
  have ha := a.isLt
  have hb := b.isLt
  rw [BitVec.toNat_eq, lowHalf, BitVec.extractLsb'_toNat, pack32_toNat, Nat.shiftRight_eq_div_pow]
  omega

@[simp] theorem highHalf_pack32 (a b : Word16) : highHalf (pack32 a b) = a := by
  have ha := a.isLt
  have hb := b.isLt
  rw [BitVec.toNat_eq, highHalf, BitVec.extractLsb'_toNat, pack32_toNat, Nat.shiftRight_eq_div_pow]
  omega

end Sys2Proof.Machine
end

