-- ==== Sys2Proof/Tests/Slice0.lean ====
section
/-! SUPPORT. The model's own tests. Expected values are those of spec/95_test_vectors.md (section numbers in the comments) or of the
rule named; none is the model's own answer. Then, for the statements that have hypotheses, states that meet them. -/

namespace Sys2Proof.Tests

open Sys2Proof.Machine

/-! ### WellFormed: a term each check refuses -/

theorem test_wf_step2_not_in_w64 : Instr.wf .w64 .step2 = false := by decide
theorem test_wf_illegalStep2_not_in_w16 : Instr.wf .w16 .illegalStep2W64 = false := by decide
theorem test_wf_s0_too_wide : Line.wf .w16 (.seed (.w16 65536 0 0 0 1 0)) = false := by decide
theorem test_wf_x0_too_wide_w64 : Line.wf .w64 (.seed (.w64 1 (2 ^ 55) 0 1 0)) = false := by decide
theorem test_wf_seed_of_other_variant : Line.wf .w64 (.seed (.w16 1 0 0 0 1 0)) = false := by decide
theorem test_wf_step2N_not_in_w64 : Line.wf .w64 (.step2N 3) = false := by decide
theorem test_wf_read_xsh_not_in_w16 : Line.wf .w16 (.read .xsh) = false := by decide
theorem test_wf_read_out32_not_in_w64 : Line.wf .w64 (.read .out32) = false := by decide
theorem test_wf_accepts_seed : Line.wf .w64 (.seed (.w64 1 (2 ^ 55 - 1) 0 1 0)) = true := by decide

/-! ### Decoding: the words of R72, bit by bit -/

theorem test_decode_nop : decode .w16 0b0000#4 = .nop ∧ decode .w64 0b0000#4 = .nop := by decide
theorem test_decode_step : decode .w16 0b0001#4 = .step ∧ decode .w64 0b0001#4 = .step := by decide
theorem test_decode_step2 : decode .w16 0b0010#4 = .step2 ∧ decode .w64 0b0010#4 = .illegalStep2W64 := by decide
theorem test_decode_seed : decode .w16 0b0011#4 = .seed ∧ decode .w64 0b0011#4 = .seed := by decide
theorem test_decode_clrerr : decode .w16 0b0100#4 = .clrerr ∧ decode .w64 0b0100#4 = .clrerr := by decide
theorem test_decode_5 : decode .w16 0b0101#4 = .illegal5 ∧ decode .w64 0b0101#4 = .illegal5 := by decide
theorem test_decode_6 : decode .w16 0b0110#4 = .illegal6 ∧ decode .w64 0b0110#4 = .illegal6 := by decide
theorem test_decode_7 : decode .w16 0b0111#4 = .illegal7 ∧ decode .w64 0b0111#4 = .illegal7 := by decide
theorem test_decode_8 : decode .w16 0b1000#4 = .illegal8 ∧ decode .w64 0b1000#4 = .illegal8 := by decide
theorem test_decode_9 : decode .w16 0b1001#4 = .illegal9 ∧ decode .w64 0b1001#4 = .illegal9 := by decide
theorem test_decode_A : decode .w16 0b1010#4 = .illegalA ∧ decode .w64 0b1010#4 = .illegalA := by decide
theorem test_decode_B : decode .w16 0b1011#4 = .illegalB ∧ decode .w64 0b1011#4 = .illegalB := by decide
theorem test_decode_C : decode .w16 0b1100#4 = .illegalC ∧ decode .w64 0b1100#4 = .illegalC := by decide
theorem test_decode_D : decode .w16 0b1101#4 = .illegalD ∧ decode .w64 0b1101#4 = .illegalD := by decide
theorem test_decode_E : decode .w16 0b1110#4 = .illegalE ∧ decode .w64 0b1110#4 = .illegalE := by decide
theorem test_decode_F : decode .w16 0b1111#4 = .illegalF ∧ decode .w64 0b1111#4 = .illegalF := by decide
theorem test_decode_rejects_wide : decodeNat .w16 16 = .error .widerThanPort := by rfl
theorem test_decodeTableWord : decodeTableWord 8 3 = some .seed ∧ decodeTableWord 8 16 = none := by decide

/-! ### Sub-steps (section 2, section 3) -/

theorem test_xs16_top_bit : xs16 0x8000#16 0x0000#16 = (0x9000#16, 0x0200#16) := by decide
theorem test_xs16_s1_top_bit : xs16 0x0000#16 0x8000#16 = (0x8000#16, 0x0200#16) := by decide
theorem test_awc16_largest : awc16 0xFFFF#16 0xFFFF#16 0xFFFF#16 = (0xFFFD#16, 0xFFFF#16, 0x0002#16) := by decide
theorem test_awc16_exact_sum : awc16 0xFFFF#16 0x0001#16 0x0000#16 = (0x0000#16, 0xFFFF#16, 0x0001#16) := by decide
theorem test_weyl16_wrap : weyl16 0xFFFF#16 = 0x9E38#16 := by decide
theorem test_out16_maxima : out16 0xFFFF#16 0xFFFF#16 0xFFFF#16 0xFFFF#16 = 0xFFFC#16 := by decide
theorem test_xs64_bit17 : xs64 0x0000000000020000#64 = 0x1100080040022001#64 := by decide
theorem test_xs64_ones : xs64 0xFFFFFFFFFFFFFFFF#64 = 0x00FFF80000001FFF#64 := by decide
theorem test_awc55_largest :
    awc55 0x007FFFFFFFFFFFFF#55 0x007FFFFFFFFFFFFF#55 0xFFFFFFFFFFFFFFFF#64 =
      (0x007FFFFFFFFFFFFD#55, 0x007FFFFFFFFFFFFF#55, 0x201#64) := by decide
theorem test_weyl64_wrap : weyl64 0xFFFFFFFFFFFFFFFF#64 = 0x9E3779B97F4A7C14#64 := by decide
theorem test_out64_maxima :
    out64 0xFFFFFFFFFFFFFFFF#64 0x007FFFFFFFFFFFFF#55 0x007FFFFFFFFFFFFF#55 0xFFFFFFFFFFFFFFFF#64 =
      0xFF800000000001FD#64 := by decide
theorem test_out64_bit54 : out64 0#64 0x0040000000000000#55 0#55 0#64 = 0x8000000000000000#64 := by decide

/-! ### The spec's pseudocode gives the spec's values (sections 2.5 and 3.5) -/

theorem test_natNext16 :
    natNext16 ⟨0x223D, 0x10E1, 3, 2, 1, 0x04D2⟩ = ⟨0xCD1B, 0x70CB, 6, 3, 0, 0xA30B⟩ ∧
      natOut16 ⟨0xCD1B, 0x70CB, 6, 3, 0, 0xA30B⟩ = 0xE0F7 := by decide
theorem test_natNext64 :
    natNext64 ⟨0x5397FB1, 3, 2, 1, 0xBC614E⟩ = ⟨0xE656B0A72A9CCAD6, 6, 3, 0, 0x9E3779B98006DD63⟩ ∧
      natOut64 ⟨0xE656B0A72A9CCAD6, 6, 3, 0, 0x9E3779B98006DD63⟩ = 0x848E2A60AAA3B43C := by decide

/-! ### Small states -/

/-- The W = 16 block right after reset, with the word `op` and a seed on the ports. -/
def at16 (op : Word4) (seed : Gen16) (r : Regs Data16) : State :=
  { block := .w16 { params := defaultParams16, regs := .defined r, ports := commandPorts op seed, pending := [] } }

/-- The W = 64 block right after reset, with the word `op` and a seed on the ports. -/
def at64 (op : Word4) (seed : Gen64) (r : Regs Data64) : State :=
  { block := .w64 { params := defaultParams64, regs := .defined r, ports := commandPorts op seed, pending := [] } }

/-- What a result leaves in the registers. -/
def after (o : Host.Outcome State Fault Refusal) : Option (RegFile Data16 ⊕ RegFile Data64) :=
  match o with
  | .next s => some s.registers
  | .fault _ => none
  | .refused _ => none

/-- A readback of the state a result leaves. -/
def readAfter (o : Host.Outcome State Fault Refusal) (idx : Word4) : Option Word64 :=
  match o with
  | .next s =>
    match s.readback idx with
    | .ok v => some v
    | .error _ => none
  | .fault _ => none
  | .refused _ => none

def seedA : Gen16 := ⟨1#16, 0#16, 0#16, 0#16, 1#16, 0#16⟩
def seedBad : Gen16 := ⟨0#16, 0#16, 5#16, 0#16, 0#16, 7#16⟩
def seedBadAwc : Gen16 := ⟨1#16, 2#16, 0#16, 0#16, 0#16, 7#16⟩
def seed64 : Gen64 := ⟨1#64, 0#55, 0#55, 1#64, 0#64⟩
def seed64Bad : Gen64 := ⟨0#64, 1#55, 0#55, 0#64, 0#64⟩
def reset16 : Regs Data16 := resetRegs16 defaultParams16
def reset64 : Regs Data64 := resetRegs64 defaultParams64

/-- The registers of P2 after its STEP2, with both error bits set: `STATUS = 0xF`. -/
def busy16 : Regs Data16 :=
  { data := { gen := ⟨0x8405#16, 0x8490#16, 1#16, 1#16, 0#16, 0x3C72#16⟩, out := 0x4508#16, out32 := 0xC25B4508#32 }
    outcnt := 2#2
    seedErr := true
    cmdErr := true }

/-! ### One step of each command (section 4, section 6) -/

theorem test_nop_keeps : after (step (at16 0x0#4 seedA busy16)) = some (.inl (.defined busy16)) := by decide
theorem test_step_w16 : after (step (at16 0x1#4 seedA reset16)) = some (.inl (.defined
    { data :=
        { gen := ⟨0xCD1B#16, 0x70CB#16, 0x0006#16, 0x0003#16, 0x0000#16, 0xA30B#16⟩
          out := 0xE0F7#16
          out32 := 0x0000E0F7#32 }
      outcnt := 1#2
      seedErr := false
      cmdErr := false })) := by decide
theorem test_step_w64 : after (step (at64 0x1#4 seed64 reset64)) = some (.inr (.defined
    { data :=
        { gen := ⟨0xE656B0A72A9CCAD6#64, 6#55, 3#55, 0#64, 0x9E3779B98006DD63#64⟩
          out := 0x848E2A60AAA3B43C#64 }
      outcnt := 1#2
      seedErr := false
      cmdErr := false })) := by decide
theorem test_step2_w16 : after (step (at16 0x2#4 seedA reset16)) = some (.inl (.defined
    { data :=
        { gen := ⟨0x7E73#16, 0x42F7#16, 0x0009#16, 0x0006#16, 0x0000#16, 0x4144#16⟩
          out := 0x02B7#16
          out32 := 0xE0F702B7#32 }
      outcnt := 2#2
      seedErr := false
      cmdErr := false })) := by decide
theorem test_step2_status : readAfter (step (at16 0x2#4 seedA reset16)) 8#4 = some 0x3#64 := by decide
theorem test_step2_illegal_w64 : after (step (at64 0x2#4 seed64 reset64)) =
    some (.inr (.defined { reset64 with cmdErr := true })) := by decide
theorem test_seed_accepted : after (step (at16 0x3#4 seedA busy16)) = some (.inl (.defined
    { data := { gen := ⟨1#16, 0#16, 0#16, 0#16, 1#16, 0#16⟩, out := 0#16, out32 := 0#32 }
      outcnt := 0#2
      seedErr := true
      cmdErr := true })) := by decide
theorem test_seed_refused_xorshift : readAfter (step (at16 0x3#4 seedBad reset16)) 8#4 = some 0x4#64 := by decide
theorem test_seed_refused_awc : after (step (at16 0x3#4 seedBadAwc reset16)) =
    some (.inl (.defined { reset16 with seedErr := true })) := by decide
theorem test_seed_refused_w64 : after (step (at64 0x3#4 seed64Bad reset64)) =
    some (.inr (.defined { reset64 with seedErr := true })) := by decide
theorem test_clrerr_status : readAfter (step (at16 0x4#4 seedA busy16)) 8#4 = some 0x3#64 := by decide
theorem test_illegal7_status : readAfter (step (at16 0x7#4 seedA { busy16 with seedErr := false, cmdErr := false })) 8#4 =
    some 0xB#64 := by decide
theorem test_reset_wins : after (step (State.withControl (fun c => { c with rst := true }) (at16 0xF#4 seedA busy16))) =
    some (.inl (.defined reset16)) := by decide
theorem test_idle_keeps : after (step (State.withControl (fun c => { c with cmdValid := false }) (at16 0xF#4 seedA busy16))) =
    some (.inl (.defined busy16)) := by decide
theorem test_step_before_reset : step (State.powerUp (at16 0x1#4 seedA busy16)) = .fault .beforeReset := by rfl
theorem test_config_w64 : (State.reset64 defaultParams64).readback 9#4 = .ok 0x403740#64 := by rfl
theorem test_readback_s0 : State.reset.readback 0#4 = .ok 0x223D#64 := by rfl
theorem test_withFetchWord : after (step (State.reset.withFetchWord 8 1)) = after (step (at16 0x1#4 seedA reset16)) := by
  decide

/-! ### The assembler (R76; P2's SEED line) -/

theorem test_parse_seed : parseLine ("SEED s0=1, s1=0, x0=0x1F, x1=0, c=1, weyl=0   # P2".toList) =
    .ok (some (.seed (.w16 1 0 31 0 1 0))) := by rfl
theorem test_read_w64 : runActions State.drive64 [.observe 9#4, .observe 7#4] (at64 0x1#4 seed64 reset64) =
    .next (at64 0x1#4 seed64 reset64, [0x403740#64, 0#64]) := by rfl
theorem test_parse_rejects_two : parseLine ("NOP NOP".toList) = .error .noSuchLine := by rfl

/-! ### States that meet the hypotheses of the statements -/

theorem witness_isDefined : (at16 0x0#4 seedA busy16).isDefined = true := by decide
theorem witness_defined_w16 :
    (⟨defaultParams16, .defined busy16, commandPorts 0x3#4 seedA, []⟩ : Built Gen16 Data16).regs = .defined busy16 := rfl
theorem witness_defined_w64 :
    (⟨defaultParams64, .defined reset64, commandPorts 0x3#4 seed64, []⟩ : Built Gen64 Data64).regs = .defined reset64 := rfl
theorem witness_seed_degenerate_w16 : seedBad.s0 = 0#16 ∧ seedBad.s1 = 0#16 := by decide
theorem witness_seed_degenerate_awc_w16 : seedBadAwc.x0 = 0#16 ∧ seedBadAwc.x1 = 0#16 ∧ seedBadAwc.c = 0#16 := by decide
theorem witness_seed_good_w16 :
    ¬((seedA.s0 = 0#16 ∧ seedA.s1 = 0#16) ∨ (seedA.x0 = 0#16 ∧ seedA.x1 = 0#16 ∧ seedA.c = 0#16)) := by decide
theorem witness_seed_degenerate_w64 : seed64Bad.xsh = 0#64 := by decide
theorem witness_seed_good_w64 :
    ¬(seed64.xsh = 0#64 ∨ (seed64.x0 = 0#55 ∧ seed64.x1 = 0#55 ∧ seed64.c = 0#64)) := by decide
theorem witness_command_edge : (at16 0x1#4 seedA busy16).control.cond = .normal ∧
    (at16 0x1#4 seedA busy16).control.rst = false ∧ (at16 0x1#4 seedA busy16).control.cmdValid = true := by decide
theorem witness_reset_edge_w16 :
    (resetPorts seedA).ctl.cond = .normal ∧ (resetPorts seedA).ctl.rst = true := by decide
theorem witness_reset_edge_w64 :
    (resetPorts seed64).ctl.cond = .normal ∧ (resetPorts seed64).ctl.rst = true := by decide
theorem witness_idle_edge : State.reset.control.cond = .normal ∧ State.reset.control.rst = false ∧
    State.reset.control.cmdValid = false := by decide
theorem witness_undefined : (State.powerUp State.reset).isDefined = false := by decide
theorem witness_reset_defines :
    step (State.withControl (fun c => { c with rst := true }) State.reset.powerUp) = .next State.reset ∧
      State.reset.powerUp.isDefined = false ∧ State.reset.isDefined = true := ⟨rfl, by decide, by decide⟩
theorem witness_unstable :
    (State.withControl (fun c => { c with cond := .unstable }) State.reset).control.cond = .unstable := rfl
theorem witness_powerLost :
    (State.withControl (fun c => { c with cond := .powerLost }) State.reset).control.cond = .powerLost := rfl
theorem witness_pending_w16 :
    (⟨defaultParams16, .undefined, idlePorts seedA, [resetPorts seedA]⟩ : Built Gen16 Data16).pending =
      resetPorts seedA :: [] := rfl
theorem witness_pending_w64 :
    (⟨defaultParams64, .undefined, idlePorts seed64, [resetPorts seed64]⟩ : Built Gen64 Data64).pending =
      resetPorts seed64 :: [] := rfl
theorem witness_illegal_w16 : Instr.illegal5 ∈ illegalInstrs ∧ Instr.illegal5 ≠ .illegalStep2W64 := by decide
theorem witness_illegal_w64 : Instr.illegalStep2W64 ∈ illegalInstrs := by decide
theorem witness_reserved_word : 5 ≤ (0x5#4 : Word4).toNat ∧ 5 ≤ (0xF#4 : Word4).toNat := by decide
theorem witness_equal_words : encode .step2 = encode .illegalStep2W64 := by decide
theorem witness_legal : State.reset.Legal := ⟨by decide, fun r h => by
  cases h
  exact ⟨by decide, by decide, by decide, by decide, by decide⟩⟩
theorem witness_legal_w64 : (State.reset64 defaultParams64).Legal := ⟨by decide, fun r h => by
  cases h
  exact ⟨by decide, by decide, by decide⟩⟩
theorem witness_legal_step : ∃ t, step (State.reset.withFetchWord 8 2) = .next t := ⟨_, rfl⟩
theorem witness_legal_run : runSteps 2 State.reset = .next State.reset := rfl
theorem witness_build16 : build16 defaultParams16 = some State.reset.powerUp := by decide
theorem witness_build64 : build64 defaultParams64 = some (State.reset64 defaultParams64).powerUp := by decide
theorem witness_no_build16 : seedBad.s0 = 0#16 ∧ seedBad.s1 = 0#16 ∧ build16 seedBad = none := by decide
theorem witness_no_build64 : seed64Bad.xsh = 0#64 ∧ build64 seed64Bad = none := by decide
theorem witness_sticky_cmdErr_set : ∃ t, step (at16 0x5#4 seedA reset16) = .next t ∧
    (at16 0x5#4 seedA reset16).stickyBits = some (0#2, false, false) ∧ t.stickyBits = some (0#2, false, true) :=
  ⟨_, rfl, rfl, rfl⟩
theorem witness_sticky_seedErr_set : ∃ t, step (at16 0x3#4 seedBad reset16) = .next t ∧
    (at16 0x3#4 seedBad reset16).stickyBits = some (0#2, false, false) ∧ t.stickyBits = some (0#2, true, false) :=
  ⟨_, rfl, rfl, rfl⟩
theorem witness_sticky_cleared : ∃ t, step (at16 0x4#4 seedA busy16) = .next t ∧
    (at16 0x4#4 seedA busy16).stickyBits = some (2#2, true, true) ∧ t.stickyBits = some (2#2, false, false) :=
  ⟨_, rfl, rfl, rfl⟩
theorem witness_generator_changes : ∃ t g g', step (at16 0x1#4 seedA reset16) = .next t ∧
    (at16 0x1#4 seedA reset16).generator = some g ∧ t.generator = some g' ∧ g' ≠ g :=
  ⟨_, .inl defaultParams16, .inl (nextGen16 defaultParams16), rfl, rfl, rfl, by decide⟩
theorem witness_not_seed_w16 : ¬State.Executes (at16 0x1#4 seedA reset16) .seed ∧
    ∃ t, step (at16 0x1#4 seedA reset16) = .next t := ⟨fun h => absurd h.2 (by decide), _, rfl⟩
theorem witness_not_seed_w64 : ¬State.Executes (at64 0x1#4 seed64 reset64) .seed ∧
    ∃ t, step (at64 0x1#4 seed64 reset64) = .next t := ⟨fun h => absurd h.2 (by decide), _, rfl⟩
theorem witness_carry_w16 : reset16.data.gen.c.toNat ≤ 1 ∧ Instr.step ≠ .seed ∧
    exec .step (at16 0x1#4 seedA reset16) = .next (at16 0x1#4 seedA (doStep16 reset16)) := ⟨by decide, by decide, rfl⟩
theorem witness_carry_w64 : reset64.data.gen.c.toNat ≤ 1 ∧ Instr.step ≠ .seed ∧
    exec .step (at64 0x1#4 seed64 reset64) = .next (at64 0x1#4 seed64 (doStep64 reset64)) := ⟨by decide, by decide, rfl⟩
theorem witness_non_stepping : Instr.clrerr ≠ .step ∧ Instr.clrerr ≠ .step2 ∧ Instr.clrerr ≠ .illegalStep2W64 ∧
    Instr.clrerr ≠ .seed ∧ ∃ t, exec .clrerr (at16 0x4#4 seedA busy16) = .next t := ⟨by decide, by decide, by decide,
      by decide, _, rfl⟩
theorem witness_driven_word : 0xF < 16 := by decide
theorem witness_same_index : (commandPorts 0x7#4 seedA).ctl.rdIdx = (idlePorts seedBad).ctl.rdIdx := by decide
theorem witness_read_index_step :
    step (State.withControl (fun c => { c with rdIdx := 7#4 }) State.reset) =
      .next (State.withControl (fun c => { c with rdIdx := 7#4 }) State.reset) ∧
    step State.reset = .next State.reset ∧ edgeKind State.reset.control = .idle := ⟨rfl, rfl, by decide⟩
theorem witness_read_index_fault : step (State.powerUp (at64 0x1#4 seed64 reset64)) = .fault .beforeReset := rfl
theorem witness_equal_registers :
    (at64 0x1#4 seed64 reset64).registers = (State.reset64 defaultParams64).registers ∧
      at64 0x1#4 seed64 reset64 ≠ State.reset64 defaultParams64 := by decide
theorem witness_bounded_line : Line.bounded (.seed (.w64 (2 ^ 64 - 1) 0 0 1 0)) = true := by decide
theorem witness_too_wide_w16 : 2 ^ 16 ≤ 65536 := by decide
theorem witness_too_wide_w64 : 2 ^ 55 ≤ 0x80000000000000 := by decide
theorem witness_read_names : (RegName.out32, 7#4) ∈ [(RegName.s0, 0#4), (.out32, 7#4)] ∧ RegName.out32 ∈ [RegName.s0, .out32] := by
  decide
theorem witness_reserved_index : 10 ≤ (10#4 : Word4).toNat ∧ 10 ≤ (15#4 : Word4).toNat := by decide

end Sys2Proof.Tests
end

section
/-! What an edge does to the build it runs in (00_scope.md R2, R7), and the widths of the AWC sums (R8). -/

namespace Sys2Proof.Machine

/-! ### The build across one edge -/

@[simp] theorem State.advance_variant (s : State) : s.advance.variant = s.variant := by
  obtain ⟨b | b⟩ := s <;> rfl

@[simp] theorem State.advance_params (s : State) : s.advance.params = s.params := by
  obtain ⟨b | b⟩ := s <;> simp

@[simp] theorem State.powerUp_variant (s : State) : s.powerUp.variant = s.variant := by
  obtain ⟨b | b⟩ := s <;> rfl

@[simp] theorem State.powerUp_params (s : State) : s.powerUp.params = s.params := by
  obtain ⟨b | b⟩ := s <;> rfl

@[simp] theorem State.resetEdge_variant (s : State) : s.resetEdge.variant = s.variant := by
  obtain ⟨b | b⟩ := s <;> rfl

@[simp] theorem State.resetEdge_params (s : State) : s.resetEdge.params = s.params := by
  obtain ⟨b | b⟩ := s <;> rfl

/-- A command writes registers only, so the build stays (R2, R7, R160). -/
theorem exec_keeps_build {i : Instr} {s t : State} (h : exec i s = .next t) :
    t.variant = s.variant ∧ t.params = s.params := by
  obtain ⟨b, r, rfl, -, rfl⟩ | ⟨b, r, rfl, -, rfl⟩ := exec_cases h
  · exact ⟨rfl, rfl⟩
  · exact ⟨rfl, rfl⟩

/-- Whatever kind of edge it is, the build stays (R2, R7). -/
theorem step_keeps_build {s t : State} (h : step s = .next t) : t.variant = s.variant ∧ t.params = s.params := by
  obtain ⟨-, rfl⟩ | ⟨-, rfl⟩ | ⟨-, u, hu, rfl⟩ | ⟨-, rfl⟩ := step_cases h
  · simp -- power loss
  · simp -- reset
  · simpa using exec_keeps_build hu -- a command
  · simp -- idle

/-! ### The widths of the AWC sums -/

/-- Three 16-bit terms fit 18 bits (R8). -/
theorem awcSum16_lt (x0 x1 c : Word16) : awcSum16 x0 x1 c < 2 ^ 18 := by
  have h0 := x0.isLt
  have h1 := x1.isLt
  have hc := c.isLt
  unfold awcSum16
  omega

/-- Two 55-bit terms and a 64-bit one fit 66 bits (R8). -/
theorem awcSum55_lt (x0 x1 : Word55) (c : Word64) : awcSum55 x0 x1 c < 2 ^ 66 := by
  have h0 := x0.isLt
  have h1 := x1.isLt
  have hc := c.isLt
  unfold awcSum55
  omega

/-- Settles O24: every kind of edge keeps the variant and the reset parameters. -/
theorem theBuildNeverChanges : Obligations.TheBuildNeverChanges :=
  fun _ _ => step_keeps_build

/-- Settles O36: each term is below the power of two of its width, so each sum is below the stated one. -/
theorem awcSumsFitTheirWidths : Obligations.AwcSumsFitTheirWidths :=
  ⟨awcSum16_lt, awcSum55_lt⟩

end Sys2Proof.Machine
end

section
/-! The effects of a command sorted by what they do to the generator, and what one edge does in each of its kinds. -/

namespace Sys2Proof.Machine

/-! ### What a command does to data and counter -/

/-- On W = 16 registers every instruction but the two of the word `0x2`, STEP and SEED touches sticky bits only (R160). -/
theorem effect16_cases (i : Instr) (seed : Gen16) (r : Regs Data16) :
    (i = .step ∧ effect16 i seed r = doStep16 r) ∨
    ((i = .step2 ∨ i = .illegalStep2W64) ∧ effect16 i seed r = doStep16 (doStep16 r)) ∨
    (i = .seed ∧ effect16 i seed r = loadSeed16 seed r) ∨
    ((effect16 i seed r).data = r.data ∧ (effect16 i seed r).outcnt = r.outcnt) := by
  cases i
  case step => exact .inl ⟨rfl, rfl⟩
  case step2 => exact .inr (.inl ⟨.inl rfl, rfl⟩)
  case illegalStep2W64 => exact .inr (.inl ⟨.inr rfl, rfl⟩)
  case seed => exact .inr (.inr (.inl ⟨rfl, rfl⟩))
  all_goals exact .inr (.inr (.inr ⟨rfl, rfl⟩))

/-- On W = 64 registers every instruction but STEP and SEED touches sticky bits only (R160). -/
theorem effect64_cases (i : Instr) (seed : Gen64) (r : Regs Data64) :
    (i = .step ∧ effect64 i seed r = doStep64 r) ∨
    (i = .seed ∧ effect64 i seed r = loadSeed64 seed r) ∨
    ((effect64 i seed r).data = r.data ∧ (effect64 i seed r).outcnt = r.outcnt) := by
  cases i
  case step => exact .inl ⟨rfl, rfl⟩
  case seed => exact .inr (.inl ⟨rfl, rfl⟩)
  all_goals exact .inr (.inr ⟨rfl, rfl⟩)

/-! ### One edge by its kind -/

theorem step_unstable {s : State} (h : edgeKind s.control = .unstable) : step s = .fault .unstableInputs := by
  simp [step, h]

theorem step_powerLoss {s : State} (h : edgeKind s.control = .powerLoss) : step s = .next s.powerUp.advance := by
  simp [step, h]

theorem step_reset {s : State} (h : edgeKind s.control = .reset) : step s = .next s.resetEdge.advance := by
  simp [step, h]

theorem step_command {s : State} (h : edgeKind s.control = .command) :
    step s = mapNext State.advance (exec (fetch s) s) := by
  simp [step, h]

theorem step_idle {s : State} (h : edgeKind s.control = .idle) : step s = .next s.advance := by
  simp [step, h]

/-- A mapped outcome is a fault only if the outcome was that fault. -/
theorem mapNext_eq_fault {f : State → State} {o : Result} {r : Fault} : mapNext f o = .fault r ↔ o = .fault r := by
  cases o <;> simp

/-- An edge faults on unstable inputs or because its command does. -/
theorem step_fault_cases {s : State} {r : Fault} (h : step s = .fault r) :
    (edgeKind s.control = .unstable ∧ r = .unstableInputs) ∨
    (edgeKind s.control = .command ∧ exec (fetch s) s = .fault r) := by
  cases hk : edgeKind s.control
  case unstable => rw [step_unstable hk] at h; cases h; exact .inl ⟨rfl, rfl⟩
  case powerLoss => rw [step_powerLoss hk] at h; cases h
  case reset => rw [step_reset hk] at h; cases h
  case command => rw [step_command hk] at h; exact .inr ⟨rfl, mapNext_eq_fault.mp h⟩
  case idle => rw [step_idle hk] at h; cases h

/-! ### What depends on the registers alone, across the move to the next cycle -/

@[simp] theorem State.advance_registers (s : State) : s.advance.registers = s.registers := by
  obtain ⟨b | b⟩ := s <;> simp

/-- Two states with equal registers are of one build. -/
theorem registers_eq_cases {s t : State} (h : s.registers = t.registers) :
    (∃ b b', s = ⟨.w16 b⟩ ∧ t = ⟨.w16 b'⟩ ∧ b.regs = b'.regs) ∨
    (∃ b b', s = ⟨.w64 b⟩ ∧ t = ⟨.w64 b'⟩ ∧ b.regs = b'.regs) := by
  obtain ⟨b | b⟩ := s <;> obtain ⟨b' | b'⟩ := t
  · exact .inl ⟨b, b', rfl, rfl, Sum.inl.inj h⟩
  · cases h
  · cases h
  · exact .inr ⟨b, b', rfl, rfl, Sum.inr.inj h⟩

theorem generator_eq_of_registers {s t : State} (h : s.registers = t.registers) : s.generator = t.generator := by
  obtain ⟨b, b', rfl, rfl, hr⟩ | ⟨b, b', rfl, rfl, hr⟩ := registers_eq_cases h <;> simp [State.generator, hr]

theorem readback_eq_of_registers {s t : State} (h : s.registers = t.registers) (idx : Word4) :
    s.readback idx = t.readback idx := by
  obtain ⟨b, b', rfl, rfl, hr⟩ | ⟨b, b', rfl, rfl, hr⟩ := registers_eq_cases h <;> simp [State.readback, hr]

@[simp] theorem State.advance_generator (s : State) : s.advance.generator = s.generator :=
  generator_eq_of_registers s.advance_registers

@[simp] theorem State.powerUp_generator (s : State) : s.powerUp.generator = none := by
  obtain ⟨b | b⟩ := s <;> rfl

theorem generator_w16 {b : Built Gen16 Data16} {r : Regs Data16} (h : b.regs = .defined r) :
    State.generator ⟨.w16 b⟩ = some (.inl r.data.gen) := by
  simp [State.generator, h]

theorem generator_w64 {b : Built Gen64 Data64} {r : Regs Data64} (h : b.regs = .defined r) :
    State.generator ⟨.w64 b⟩ = some (.inr r.data.gen) := by
  simp [State.generator, h]

end Sys2Proof.Machine
end

section
/-! No sub-step makes an all-zero generator part from one that is not (10_state.md R36, points 2 and 3). -/

namespace Sys2Proof.Machine

/-! ### The xorshift sub-steps -/

/-- A rotation loses no bit: the left shift drops the top `r` bits, which the right shift keeps. -/
theorem rotl16_eq_zero {x : Word16} {r : Nat} (hr : r ≤ 16) (h : rotl16 x r = 0#16) : x = 0#16 := by
  obtain ⟨hlow, hhigh⟩ : x <<< r = 0#16 ∧ x >>> (16 - r) = 0#16 := BitVec.or_eq_zero_iff.mp h
  refine BitVec.eq_of_getElem_eq fun i hi => ?_
  by_cases hir : i < 16 - r
  · have hbit := congrArg (·.getLsbD (i + r)) hlow
    simpa [hi, show i + r < 16 by omega] using hbit
  · have hbit := congrArg (·.getLsbD (i - (16 - r))) hhigh
    simpa [hi, show 16 - r + (i - (16 - r)) = i by omega] using hbit

/-- The xorshift state of the W = 16 build is all zero only after the all-zero one (R101, R36). -/
theorem xs16_eq_zero {s0 s1 : Word16} (h : xs16 s0 s1 = (0#16, 0#16)) : s0 = 0#16 ∧ s1 = 0#16 := by
  obtain ⟨h0, h1⟩ := Prod.mk.inj h
  have hmix : xs16Mix s0 s1 = 0#16 := rotl16_eq_zero (by decide) h1
  have hs0 : s0 = 0#16 := rotl16_eq_zero (r := 13) (by decide) (by simpa [hmix] using h0)
  subst hs0
  exact ⟨rfl, by simpa [xs16Mix] using hmix⟩

/-- `x ^ (x << k)` is zero only for `x = 0`: each bit equals the one `k` below it, and the lowest `k` bits are 0. -/
theorem eq_zero_of_xor_shiftLeft {w k : Nat} (hk : 0 < k) {x : BitVec w} (h : x ^^^ (x <<< k) = 0#w) : x = 0#w := by
  have hx : x = x <<< k := BitVec.xor_eq_zero_iff.mp h
  have hbit : ∀ i, x.getLsbD i = false := by
    intro i
    induction i using Nat.strongRecOn with
    | ind i ih =>
      rw [hx, BitVec.getLsbD_shiftLeft]
      by_cases hik : i < k
      · simp [hik]
      · simp [ih (i - k) (by omega)]
  exact BitVec.eq_of_getLsbD_eq fun i _ => by simp [hbit i]

/-- `x ^ (x >> k)` is zero only for `x = 0`: a number that equals its quotient by `2 ^ k` is 0. -/
theorem eq_zero_of_xor_ushiftRight {w k : Nat} (hk : 0 < k) {x : BitVec w} (h : x ^^^ (x >>> k) = 0#w) : x = 0#w := by
  have hx : x.toNat = x.toNat / 2 ^ k := by
    rw [← Nat.shiftRight_eq_div_pow, ← BitVec.toNat_ushiftRight, ← BitVec.xor_eq_zero_iff.mp h]
  apply BitVec.eq_of_toNat_eq
  by_contra hne
  have hlt := Nat.div_lt_self (Nat.pos_of_ne_zero hne) (Nat.one_lt_two_pow hk.ne')
  omega

/-- The xorshift state of the W = 64 build is zero only after zero (R131, R36). -/
theorem xs64_eq_zero {x : Word64} (h : xs64 x = 0#64) : x = 0#64 := by
  have hb : xs64B (xs64A x) = 0#64 := eq_zero_of_xor_shiftLeft (by decide) h
  have ha : xs64A x = 0#64 := eq_zero_of_xor_ushiftRight (by decide) hb
  exact eq_zero_of_xor_shiftLeft (by decide) ha

/-! ### The AWC sub-step -/

/-- A sum whose remainder and quotient are both 0 is 0, and so is each of its terms (R102, R36). -/
theorem awc16_eq_zero_iff (x0 x1 c : Word16) :
    awc16 x0 x1 c = (0#16, 0#16, 0#16) ↔ x0 = 0#16 ∧ x1 = 0#16 ∧ c = 0#16 := by
  constructor
  · intro h
    have hx := awc16_x0_toNat x0 x1 c
    have hc := awc16_c_toNat x0 x1 c
    rw [h, BitVec.toNat_ofNat] at hx hc
    refine ⟨?_, ?_, ?_⟩ <;> apply BitVec.eq_of_toNat_eq <;> rw [BitVec.toNat_ofNat] <;> omega
  · rintro ⟨rfl, rfl, rfl⟩
    rfl

/-- The same for the W = 64 build (R132, R36). -/
theorem awc55_eq_zero_iff (x0 x1 : Word55) (c : Word64) :
    awc55 x0 x1 c = (0#55, 0#55, 0#64) ↔ x0 = 0#55 ∧ x1 = 0#55 ∧ c = 0#64 := by
  constructor
  · intro h
    have hx := awc55_x0_toNat x0 x1 c
    have hc := awc55_c_toNat x0 x1 c
    rw [h, BitVec.toNat_ofNat] at hx hc
    refine ⟨?_, ?_, ?_⟩ <;> apply BitVec.eq_of_toNat_eq <;> rw [BitVec.toNat_ofNat] <;> omega
  · rintro ⟨rfl, rfl, rfl⟩
    rfl

/-- Settles O31: both parts of the exact sum are 0 only when the sum is. -/
theorem awcZeroComesOnlyFromZero : Obligations.AwcZeroComesOnlyFromZero :=
  ⟨awc16_eq_zero_iff, awc55_eq_zero_iff⟩

/-! ### The generator as a whole -/

/-- R36, points 2 and 3, W = 16. -/
theorem nextGen16_not_degenerate {g : Gen16} (h : degenerate16 g = false) : degenerate16 (nextGen16 g) = false := by
  rw [← Bool.not_eq_true, degenerate16_iff] at h ⊢
  refine mt ?_ h
  rintro (⟨h0, h1⟩ | ⟨hx0, hx1, hc⟩)
  · exact .inl (xs16_eq_zero (Prod.ext h0 h1))
  · exact .inr ((awc16_eq_zero_iff _ _ _).mp (Prod.ext hx0 (Prod.ext hx1 hc)))

/-- R36, points 2 and 3, W = 64. -/
theorem nextGen64_not_degenerate {g : Gen64} (h : degenerate64 g = false) : degenerate64 (nextGen64 g) = false := by
  rw [← Bool.not_eq_true, degenerate64_iff] at h ⊢
  refine mt ?_ h
  rintro (hxsh | ⟨hx0, hx1, hc⟩)
  · exact .inl (xs64_eq_zero hxsh)
  · exact .inr ((awc55_eq_zero_iff _ _ _).mp (Prod.ext hx0 (Prod.ext hx1 hc)))

end Sys2Proof.Machine
end

section
/-! The legal states are closed under every edge and every run (10_state.md R36, R28 to R30). -/

namespace Sys2Proof.Machine

/-! ### Legal registers -/

/-- Legality speaks of data and counter, so an edit of the sticky bits keeps it. -/
theorem Legal16.congr {r r' : Regs Data16} (h : Legal16 r) (hd : r'.data = r.data) (hn : r'.outcnt = r.outcnt) :
    Legal16 r' := by
  obtain ⟨d, n, se, ce⟩ := r
  obtain ⟨d', n', se', ce'⟩ := r'
  cases hd
  cases hn
  exact ⟨h.generator, h.outcnt, h.latest, h.noOutput, h.noPair⟩

theorem Legal64.congr {r r' : Regs Data64} (h : Legal64 r) (hd : r'.data = r.data) (hn : r'.outcnt = r.outcnt) :
    Legal64 r' := by
  obtain ⟨d, n, se, ce⟩ := r
  obtain ⟨d', n', se', ce'⟩ := r'
  cases hd
  cases hn
  exact ⟨h.generator, h.outcnt, h.noOutput⟩

/-- A generator state just loaded, with the outputs and the counter cleared (R35, R165). -/
theorem legal16_loaded {r : Regs Data16} (hg : degenerate16 r.data.gen = false) (ho : r.data.out = 0#16)
    (h32 : r.data.out32 = 0#32) (hn : r.outcnt = 0#2) : Legal16 r where
  generator := hg
  outcnt := by simp [hn]
  latest := by rw [h32, ho]; decide
  noOutput _ := ho
  noPair _ := by rw [h32]; decide

theorem legal64_loaded {r : Regs Data64} (hg : degenerate64 r.data.gen = false) (ho : r.data.out = 0#64)
    (hn : r.outcnt = 0#2) : Legal64 r where
  generator := hg
  outcnt := by simp [hn]
  noOutput _ := ho

theorem resetRegs16_legal {p : Gen16} (h : degenerate16 p = false) : Legal16 (resetRegs16 p) :=
  legal16_loaded h rfl rfl rfl

theorem resetRegs64_legal {p : Gen64} (h : degenerate64 p = false) : Legal64 (resetRegs64 p) :=
  legal64_loaded h rfl rfl

/-- After a step `OUTCNT` is 1 or 2; it is 1 only after 0, when the old `OUT`, now the high half of `OUT32`, was 0. -/
theorem doStep16_legal {r : Regs Data16} (h : Legal16 r) : Legal16 (doStep16 r) where
  generator := nextGen16_not_degenerate h.generator
  outcnt := by simp
  latest := by simp
  noOutput hn := by simp at hn
  noPair hn := by
    rw [doStep16_outcnt, bumpOutcnt_toNat] at hn
    rw [doStep16_out32, highHalf_pack32]
    exact h.noOutput (by omega)

theorem doStep64_legal {r : Regs Data64} (h : Legal64 r) : Legal64 (doStep64 r) where
  generator := nextGen64_not_degenerate h.generator
  outcnt := by simp
  noOutput hn := by simp at hn

/-- SEED loads only what is not degenerate (R165, R166). -/
theorem loadSeed16_legal {r : Regs Data16} (seed : Gen16) (h : Legal16 r) : Legal16 (loadSeed16 seed r) := by
  cases hd : degenerate16 seed
  · rw [loadSeed16_accepted hd]; exact legal16_loaded hd rfl rfl rfl
  · rw [loadSeed16_refused hd]; exact h.congr rfl rfl

theorem loadSeed64_legal {r : Regs Data64} (seed : Gen64) (h : Legal64 r) : Legal64 (loadSeed64 seed r) := by
  cases hd : degenerate64 seed
  · rw [loadSeed64_accepted hd]; exact legal64_loaded hd rfl rfl
  · rw [loadSeed64_refused hd]; exact h.congr rfl rfl

theorem effect16_legal {r : Regs Data16} (i : Instr) (seed : Gen16) (h : Legal16 r) : Legal16 (effect16 i seed r) := by
  obtain ⟨-, he⟩ | ⟨-, he⟩ | ⟨-, he⟩ | ⟨hd, hn⟩ := effect16_cases i seed r
  · rw [he]; exact doStep16_legal h
  · rw [he]; exact doStep16_legal (doStep16_legal h)
  · rw [he]; exact loadSeed16_legal seed h
  · exact h.congr hd hn

theorem effect64_legal {r : Regs Data64} (i : Instr) (seed : Gen64) (h : Legal64 r) : Legal64 (effect64 i seed r) := by
  obtain ⟨-, he⟩ | ⟨-, he⟩ | ⟨hd, hn⟩ := effect64_cases i seed r
  · rw [he]; exact doStep64_legal h
  · rw [he]; exact loadSeed64_legal seed h
  · exact h.congr hd hn

/-! ### Legal states -/

@[simp] theorem legal_w16 (b : Built Gen16 Data16) :
    State.Legal ⟨.w16 b⟩ ↔ degenerate16 b.params = false ∧ ∀ r, b.regs = .defined r → Legal16 r := Iff.rfl

@[simp] theorem legal_w64 (b : Built Gen64 Data64) :
    State.Legal ⟨.w64 b⟩ ↔ degenerate64 b.params = false ∧ ∀ r, b.regs = .defined r → Legal64 r := Iff.rfl

theorem State.Legal.advance {s : State} (h : s.Legal) : s.advance.Legal := by
  obtain ⟨b | b⟩ := s <;> simpa using h

theorem State.Legal.powerUp {s : State} (h : s.Legal) : s.powerUp.Legal := by
  obtain ⟨b | b⟩ := s
  · exact ⟨h.1, fun r hr => by cases hr⟩
  · exact ⟨h.1, fun r hr => by cases hr⟩

/-- The parameters of a block that exists are not degenerate, so reset loads a legal generator (R233). -/
theorem State.Legal.resetEdge {s : State} (h : s.Legal) : s.resetEdge.Legal := by
  obtain ⟨b | b⟩ := s
  · exact ⟨h.1, fun r hr => by cases hr; exact resetRegs16_legal h.1⟩
  · exact ⟨h.1, fun r hr => by cases hr; exact resetRegs64_legal h.1⟩

theorem State.Legal.exec {i : Instr} {s t : State} (h : s.Legal) (ht : exec i s = .next t) : t.Legal := by
  obtain ⟨b, r, rfl, hr, rfl⟩ | ⟨b, r, rfl, hr, rfl⟩ := exec_cases ht
  · exact ⟨h.1, fun r' hr' => by cases hr'; exact effect16_legal i _ (h.2 r hr)⟩
  · exact ⟨h.1, fun r' hr' => by cases hr'; exact effect64_legal i _ (h.2 r hr)⟩

theorem State.Legal.step {s t : State} (h : s.Legal) (ht : step s = .next t) : t.Legal := by
  obtain ⟨-, rfl⟩ | ⟨-, rfl⟩ | ⟨-, u, hu, rfl⟩ | ⟨-, rfl⟩ := step_cases ht
  · exact h.powerUp.advance -- power loss
  · exact h.resetEdge.advance -- reset
  · exact (h.exec hu).advance -- a command
  · exact h.advance -- idle

theorem State.Legal.run (n : Nat) : ∀ {s t : State}, s.Legal → runSteps n s = .next t → t.Legal := by
  induction n with
  | zero => intro s t h ht; cases ht; exact h
  | succ n ih =>
    intro s t h ht
    obtain ⟨u, hu, hrun⟩ := runSteps_cases ht
    exact ih (h.step hu) hrun

/-! ### Where a block starts -/

theorem build16_eq_some {p : Gen16} {s : State} (h : build16 p = some s) :
    degenerate16 p = false ∧ s = (State.reset16 p).powerUp := by
  unfold build16 at h
  split at h
  · cases h
  · next hd => cases h; exact ⟨by simpa using hd, rfl⟩

theorem build64_eq_some {p : Gen64} {s : State} (h : build64 p = some s) :
    degenerate64 p = false ∧ s = (State.reset64 p).powerUp := by
  unfold build64 at h
  split at h
  · cases h
  · next hd => cases h; exact ⟨by simpa using hd, rfl⟩

theorem reset16_legal {p : Gen16} (h : degenerate16 p = false) : (State.reset16 p).Legal :=
  ⟨h, fun _ hr => by cases hr; exact resetRegs16_legal h⟩

theorem reset64_legal {p : Gen64} (h : degenerate64 p = false) : (State.reset64 p).Legal :=
  ⟨h, fun _ hr => by cases hr; exact resetRegs64_legal h⟩

/-- Settles O21: power loss, reset, each command and the idle edge all keep `State.Legal`. -/
theorem everyStepKeepsTheStateLegal : Obligations.EveryStepKeepsTheStateLegal :=
  fun _ _ => State.Legal.step

/-- Settles O23: by induction on the number of steps. -/
theorem everyRunStaysLegal : Obligations.EveryRunStaysLegal :=
  fun n _ _ => State.Legal.run n

/-- Settles O22: the build check passes only parameters that are not degenerate, and these are what reset loads. -/
theorem existingBuildsStartLegal : Obligations.ExistingBuildsStartLegal := by
  refine ⟨fun p s hb => ?_, fun p s hb => ?_, reset16_legal (by decide)⟩
  · obtain ⟨hp, rfl⟩ := build16_eq_some hb
    exact ⟨(reset16_legal hp).powerUp, reset16_legal hp⟩
  · obtain ⟨hp, rfl⟩ := build64_eq_some hb
    exact ⟨(reset64_legal hp).powerUp, reset64_legal hp⟩

end Sys2Proof.Machine
end

section
/-! Who can change the generator (10_state.md R21), and the carry (R26, R36). -/

namespace Sys2Proof.Machine

/-! ### The generator across one command -/

/-- The word a build reads is a command of that build (R72). -/
theorem decode_wf (v : Variant) (op : Word4) : (decode v op).wf v = true := by
  cases v
  · revert op; decide
  · revert op; decide

/-- STEP2's word is fetched as illegal only in the W = 64 build (R72, R75). -/
theorem fetch_ne_illegalStep2W64 {s : State} (hv : s.variant = .w16) : fetch s ≠ .illegalStep2W64 := by
  intro h
  have hwf := decode_wf s.variant s.control.cmdOp
  rw [show decode s.variant s.control.cmdOp = .illegalStep2W64 from h, hv] at hwf
  cases hwf

/-- A command leaves the generator or is a STEP, a STEP2 (by either name of its word, log 10) or an accepted SEED (R21, R165). -/
theorem exec_generator_cases {i : Instr} {s t : State} (h : exec i s = .next t) :
    t.generator = s.generator ∨ i = .step ∨ i = .step2 ∨ (i = .illegalStep2W64 ∧ s.variant = .w16) ∨
      (i = .seed ∧ s.seedDegenerate = false) := by
  obtain ⟨b, r, rfl, hr, rfl⟩ | ⟨b, r, rfl, hr, rfl⟩ := exec_cases h
  · obtain ⟨rfl, -⟩ | ⟨rfl | rfl, -⟩ | ⟨rfl, he⟩ | ⟨hd, -⟩ := effect16_cases i b.ports.seed r
    · exact .inr (.inl rfl)
    · exact .inr (.inr (.inl rfl))
    · exact .inr (.inr (.inr (.inl ⟨rfl, rfl⟩)))
    · cases hdeg : degenerate16 b.ports.seed
      · exact .inr (.inr (.inr (.inr ⟨rfl, hdeg⟩)))
      · left; rw [generator_w16 rfl, generator_w16 hr, he, loadSeed16_refused hdeg, setSeedErr_data]
    · left; rw [generator_w16 rfl, generator_w16 hr, hd]
  · obtain ⟨rfl, -⟩ | ⟨rfl, he⟩ | ⟨hd, -⟩ := effect64_cases i b.ports.seed r
    · exact .inr (.inl rfl)
    · cases hdeg : degenerate64 b.ports.seed
      · exact .inr (.inr (.inr (.inr ⟨rfl, hdeg⟩)))
      · left; rw [generator_w64 rfl, generator_w64 hr, he, loadSeed64_refused hdeg, setSeedErr_data]
    · left; rw [generator_w64 rfl, generator_w64 hr, hd]

/-- Settles O26: power loss leaves no generator value, an idle edge the same one; a command is as
`exec_generator_cases` says. -/
theorem generatorChangesOnlyByStepSeedOrReset : Obligations.GeneratorChangesOnlyByStepSeedOrReset := by
  intro s t g g' h hg hg' hne
  have hchange : t.generator ≠ s.generator := by rw [hg, hg']; simpa using hne
  obtain ⟨-, rfl⟩ | ⟨hk, -⟩ | ⟨hk, u, hu, rfl⟩ | ⟨-, rfl⟩ := step_cases h
  · simp at hg' -- power loss
  · exact .inl hk -- reset
  · rw [State.advance_generator] at hchange
    obtain hsame | hi | hi | ⟨hi, hv⟩ | ⟨hi, hseed⟩ := exec_generator_cases hu
    · exact absurd hsame hchange
    · exact .inr (.inl ⟨hk, hi⟩)
    · exact .inr (.inr (.inl ⟨hk, hi⟩))
    · exact absurd hi (fetch_ne_illegalStep2W64 hv)
    · exact .inr (.inr (.inr ⟨⟨hk, hi⟩, hseed⟩))
  · simp at hchange -- idle

/-! ### The carry -/

/-- Two AWC words and a carry of at most 1 are below twice the modulus (R102). -/
theorem doStep16_carry_le {r : Regs Data16} (h : r.data.gen.c.toNat ≤ 1) : (doStep16 r).data.gen.c.toNat ≤ 1 := by
  have h0 := r.data.gen.x0.isLt
  have h1 := r.data.gen.x1.isLt
  have hc : (doStep16 r).data.gen.c.toNat = _ := awc16_c_toNat r.data.gen.x0 r.data.gen.x1 r.data.gen.c
  omega

theorem doStep64_carry_le {r : Regs Data64} (h : r.data.gen.c.toNat ≤ 1) : (doStep64 r).data.gen.c.toNat ≤ 1 := by
  have h0 := r.data.gen.x0.isLt
  have h1 := r.data.gen.x1.isLt
  have hc : (doStep64 r).data.gen.c.toNat = _ := awc55_c_toNat r.data.gen.x0 r.data.gen.x1 r.data.gen.c
  omega

theorem effect16_carry_le {i : Instr} {seed : Gen16} {r : Regs Data16} (hi : i ≠ .seed) (h : r.data.gen.c.toNat ≤ 1) :
    (effect16 i seed r).data.gen.c.toNat ≤ 1 := by
  obtain ⟨-, he⟩ | ⟨-, he⟩ | ⟨his, -⟩ | ⟨hd, -⟩ := effect16_cases i seed r
  · rw [he]; exact doStep16_carry_le h
  · rw [he]; exact doStep16_carry_le (doStep16_carry_le h)
  · exact absurd his hi
  · rwa [hd]

theorem effect64_carry_le {i : Instr} {seed : Gen64} {r : Regs Data64} (hi : i ≠ .seed) (h : r.data.gen.c.toNat ≤ 1) :
    (effect64 i seed r).data.gen.c.toNat ≤ 1 := by
  obtain ⟨-, he⟩ | ⟨his, -⟩ | ⟨hd, -⟩ := effect64_cases i seed r
  · rw [he]; exact doStep64_carry_le h
  · exact absurd his hi
  · rwa [hd]

/-- Settles O35: the registers after a command are its effect, and only SEED loads a carry. -/
theorem carryStaysAtMostOne : Obligations.CarryStaysAtMostOne := by
  refine ⟨fun i b r r' hi hr hc h => ?_, fun i b r r' hi hr hc h => ?_⟩
  · rw [exec_w16 i hr] at h
    cases h
    exact effect16_carry_le hi hc
  · rw [exec_w64 i hr] at h
    cases h
    exact effect64_carry_le hi hc

end Sys2Proof.Machine
end

section
/-! `rd_idx` reaches the readback port only (10_state.md R34, 20_memory.md R58, 70_reset_and_hazards.md R237). -/

namespace Sys2Proof.Machine

/-! ### Control inputs and one edge -/

@[simp] theorem withControl_control (f : Control → Control) (s : State) :
    (s.withControl f).control = f s.control := by
  obtain ⟨b | b⟩ := s <;> rfl

@[simp] theorem withControl_variant (f : Control → Control) (s : State) : (s.withControl f).variant = s.variant := by
  obtain ⟨b | b⟩ := s <;> rfl

@[simp] theorem withControl_registers (f : Control → Control) (s : State) :
    (s.withControl f).registers = s.registers := by
  obtain ⟨b | b⟩ := s <;> rfl

@[simp] theorem withControl_powerUp (f : Control → Control) (s : State) :
    (s.withControl f).powerUp = s.powerUp.withControl f := by
  obtain ⟨b | b⟩ := s <;> rfl

@[simp] theorem withControl_resetEdge (f : Control → Control) (s : State) :
    (s.withControl f).resetEdge = s.resetEdge.withControl f := by
  obtain ⟨b | b⟩ := s <;> rfl

/-- A command reads the registers and the seed ports, so it commutes with driving other control inputs (R160). -/
theorem exec_withControl (i : Instr) (f : Control → Control) (s : State) :
    exec i (s.withControl f) = mapNext (State.withControl f) (exec i s) := by
  rw [exec_eq_onRegs]
  obtain ⟨b | b⟩ := s
  · cases hr : b.regs <;> simp [onRegs, hr]
  · cases hr : b.regs <;> simp [onRegs, hr]

section ReadIndex
variable (idx : Word4)

/-- The present cycle with another readback index. -/
def State.withReadIndex (s : State) : State := s.withControl fun c => { c with rdIdx := idx }

@[simp] theorem withReadIndex_edgeKind (s : State) : edgeKind (s.withReadIndex idx).control = edgeKind s.control := by
  simp [State.withReadIndex, edgeKind]

@[simp] theorem withReadIndex_fetch (s : State) : fetch (s.withReadIndex idx) = fetch s := by
  simp [State.withReadIndex, fetch]

/-- The kind of edge, the command and what it reads are all independent of `rd_idx` (R34). -/
theorem step_withReadIndex_next {s t : State} (h : step s = .next t) :
    ∃ t', step (s.withReadIndex idx) = .next t' ∧ t'.registers = t.registers := by
  obtain ⟨hk, rfl⟩ | ⟨hk, rfl⟩ | ⟨hk, u, hu, rfl⟩ | ⟨hk, rfl⟩ := step_cases h <;>
    rw [← withReadIndex_edgeKind idx] at hk
  · exact ⟨_, step_powerLoss hk, by simp [State.withReadIndex]⟩
  · exact ⟨_, step_reset hk, by simp [State.withReadIndex]⟩
  · refine ⟨(u.withReadIndex idx).advance, ?_, by simp [State.withReadIndex]⟩
    rw [step_command hk, withReadIndex_fetch, State.withReadIndex, exec_withControl, hu]
    rfl
  · exact ⟨_, step_idle hk, by simp [State.withReadIndex]⟩

theorem step_withReadIndex_fault {s : State} {r : Fault} (h : step s = .fault r) :
    step (s.withReadIndex idx) = .fault r := by
  obtain ⟨hk, rfl⟩ | ⟨hk, hf⟩ := step_fault_cases h <;> rw [← withReadIndex_edgeKind idx] at hk
  · exact step_unstable hk
  · rw [step_command hk, withReadIndex_fetch, State.withReadIndex, exec_withControl, hf]
    rfl

end ReadIndex

/-- Settles O41: an edge does the same with another `rd_idx`, and a readback is settled by the registers, which an
idle edge keeps. -/
theorem readIndexChangesNoRegister : Obligations.ReadIndexChangesNoRegister := by
  refine ⟨fun _ _ idx h => step_withReadIndex_next idx h, fun _ _ idx h => step_withReadIndex_fault idx h,
    fun _ _ idx h => readback_eq_of_registers h idx, fun s t idx hk h => ?_⟩
  rw [step_idle hk] at h
  cases h
  exact readback_eq_of_registers s.advance_registers idx

end Sys2Proof.Machine
end

section
/-! What the readback port shows (10_state.md R31 to R33, R35). -/

namespace Sys2Proof.Machine

/-! ### `STATUS` -/

/-- A sum of four bits at the weights 1, 2, 4 and 8 has them as its lowest bits. -/
theorem fourBits_getLsbD (a b c d : Bool) :
    let v := BitVec.ofNat 64 (a.toNat + 2 * b.toNat + 4 * c.toNat + 8 * d.toNat)
    v.getLsbD 0 = a ∧ v.getLsbD 1 = b ∧ v.getLsbD 2 = c ∧ v.getLsbD 3 = d := by
  revert a b c d; decide

theorem statusWord_toNat_lt {D : Type} (v : Variant) (r : Regs D) : (statusWord v r).toNat < 2 ^ 4 := by
  have h0 := (outValid r).toNat_le
  have h1 := (out32Valid v r).toNat_le
  have h2 := r.seedErr.toNat_le
  have h3 := r.cmdErr.toNat_le
  rw [statusWord, BitVec.toNat_ofNat]
  omega

/-- Bits 63:4 of `STATUS` are 0 (R31). -/
theorem statusWord_getLsbD_high {D : Type} (v : Variant) (r : Regs D) {i : Nat} (hi : 4 ≤ i) :
    (statusWord v r).getLsbD i = false :=
  Nat.testBit_lt_two_pow (Nat.lt_of_lt_of_le (statusWord_toNat_lt v r) (Nat.pow_le_pow_right (by decide) hi))

/-- The bits of `STATUS` in either build (R31). -/
theorem statusWord_getLsbD {D : Type} (v : Variant) (r : Regs D) :
    (statusWord v r).getLsbD 0 = outValid r ∧ (statusWord v r).getLsbD 1 = out32Valid v r ∧
      (statusWord v r).getLsbD 2 = r.seedErr ∧ (statusWord v r).getLsbD 3 = r.cmdErr ∧
      ∀ i : Nat, 4 ≤ i → (statusWord v r).getLsbD i = false := by
  obtain ⟨h0, h1, h2, h3⟩ := fourBits_getLsbD (outValid r) (out32Valid v r) r.seedErr r.cmdErr
  exact ⟨h0, h1, h2, h3, fun _ => statusWord_getLsbD_high v r⟩

/-- Settles O38: OUT_VALID and OUT32_VALID are the stated tests of OUTCNT in each build. -/
theorem statusBits : Obligations.StatusBits :=
  ⟨statusWord_getLsbD .w16, statusWord_getLsbD .w64⟩

/-! ### The readback map -/

/-- The reserved indices (R33). -/
theorem reservedIndex_cases {idx : Word4} (h : 10 ≤ idx.toNat) :
    idx = 10#4 ∨ idx = 11#4 ∨ idx = 12#4 ∨ idx = 13#4 ∨ idx = 14#4 ∨ idx = 15#4 := by
  revert idx; decide

theorem readback16_reserved (r : Regs Data16) {idx : Word4} (h : 10 ≤ idx.toNat) : readback16 r idx = 0#64 := by
  obtain rfl | rfl | rfl | rfl | rfl | rfl := reservedIndex_cases h <;> rfl

theorem readback64_reserved (r : Regs Data64) {idx : Word4} (h : 10 ≤ idx.toNat) : readback64 r idx = 0#64 := by
  obtain rfl | rfl | rfl | rfl | rfl | rfl := reservedIndex_cases h <;> rfl

/-- Settles O37: `readback16` and `readback64` are the maps; zero-extension keeps the value. -/
theorem readbackMap : Obligations.ReadbackMap := by
  have zext {w : Nat} (x : BitVec w) (hw : w ≤ 64 := by decide) : (x.setWidth 64).toNat = x.toNat :=
    BitVec.toNat_setWidth_of_le hw
  refine ⟨fun b r hr => ⟨readback16 r, readback_w16 hr, ?_⟩, fun b r hr => ⟨readback64 r, readback_w64 hr, ?_⟩⟩
  · exact ⟨zext _, zext _, zext _, zext _, zext _, zext _, zext _, zext _, rfl, rfl, fun _ => readback16_reserved r⟩
  · exact ⟨rfl, rfl, zext _, zext _, rfl, rfl, rfl, rfl, rfl, rfl, fun _ => readback64_reserved r⟩

theorem readback_config {s : State} (h : s.isDefined = true) : s.readback 9#4 = .ok (configWord s.variant) := by
  obtain ⟨b | b⟩ := s
  · cases hr : b.regs with
    | undefined => simp [State.isDefined, hr] at h
    | defined r => exact readback_w16 hr 9#4
  · cases hr : b.regs with
    | undefined => simp [State.isDefined, hr] at h
    | defined r => exact readback_w64 hr 9#4

/-- Settles O39: the two constants by evaluation, and index 9 of either map. -/
theorem configIdentifiesTheVariant : Obligations.ConfigIdentifiesTheVariant := by
  refine ⟨by decide, by decide, fun v => ?_, fun _ => readback_config⟩
  cases v <;> decide

/-- With OUTCNT 0 and both error bits 0, `STATUS` is 0 (R31, R35). -/
theorem statusWord_cleared {D : Type} (v : Variant) {r : Regs D} (hn : r.outcnt = 0#2) (hs : r.seedErr = false)
    (hc : r.cmdErr = false) : statusWord v r = 0#64 := by
  cases v <;> simp [statusWord, outValid, out32Valid, hn, hs, hc]

/-- Settles O13: reset loads the parameters, which are the stated words in the default builds, and clears what `STATUS` shows. -/
theorem defaultResetRegisters : Obligations.DefaultResetRegisters := by
  refine ⟨rfl, rfl, fun p => ?_, fun p => ?_⟩
  · rw [State.reset16, readback_w16 rfl]
    exact congrArg Except.ok (statusWord_cleared .w16 rfl rfl rfl)
  · rw [State.reset64, readback_w64 rfl]
    exact congrArg Except.ok (statusWord_cleared .w64 rfl rfl rfl)

end Sys2Proof.Machine
end

section
/-! The seed ports reach SEED only (20_memory.md R53). -/

namespace Sys2Proof.Machine

/-- Of all commands only SEED reads the seed ports (R53, R160). -/
theorem effect16_seed_irrelevant {i : Instr} (hi : i ≠ .seed) (g g' : Gen16) (r : Regs Data16) :
    effect16 i g r = effect16 i g' r := by
  cases i
  case seed => exact absurd rfl hi
  all_goals rfl

theorem effect64_seed_irrelevant {i : Instr} (hi : i ≠ .seed) (g g' : Gen64) (r : Regs Data64) :
    effect64 i g r = effect64 i g' r := by
  cases i
  case seed => exact absurd rfl hi
  all_goals rfl

section SeedPorts
variable (f16 : Gen16 → Gen16) (f64 : Gen64 → Gen64)

/-- The present cycle with other values on the seed ports of its build; nothing else changes. -/
def State.withSeed (s : State) : State :=
  match s.block with
  | .w16 b => { block := .w16 { b with ports := { b.ports with seed := f16 b.ports.seed } } }
  | .w64 b => { block := .w64 { b with ports := { b.ports with seed := f64 b.ports.seed } } }

@[simp] theorem withSeed_control (s : State) : (s.withSeed f16 f64).control = s.control := by
  obtain ⟨b | b⟩ := s <;> rfl

@[simp] theorem withSeed_variant (s : State) : (s.withSeed f16 f64).variant = s.variant := by
  obtain ⟨b | b⟩ := s <;> rfl

@[simp] theorem withSeed_registers (s : State) : (s.withSeed f16 f64).registers = s.registers := by
  obtain ⟨b | b⟩ := s <;> rfl

@[simp] theorem withSeed_powerUp (s : State) : (s.withSeed f16 f64).powerUp = s.powerUp.withSeed f16 f64 := by
  obtain ⟨b | b⟩ := s <;> rfl

@[simp] theorem withSeed_resetEdge (s : State) : (s.withSeed f16 f64).resetEdge = s.resetEdge.withSeed f16 f64 := by
  obtain ⟨b | b⟩ := s <;> rfl

@[simp] theorem withSeed_fetch (s : State) : fetch (s.withSeed f16 f64) = fetch s := by
  simp [fetch]

/-- A command other than SEED commutes with driving other values on the seed ports. -/
theorem exec_withSeed {i : Instr} (hi : i ≠ .seed) {s u : State} (h : exec i s = .next u) :
    exec i (s.withSeed f16 f64) = .next (u.withSeed f16 f64) := by
  obtain ⟨b, r, rfl, hr, rfl⟩ | ⟨b, r, rfl, hr, rfl⟩ := exec_cases h
  · rw [effect16_seed_irrelevant hi _ (f16 b.ports.seed)]
    exact exec_w16 i hr
  · rw [effect64_seed_irrelevant hi _ (f64 b.ports.seed)]
    exact exec_w64 i hr

/-- The kind of edge and the command are independent of the seed ports, and so is what the edge does unless that is SEED. -/
theorem step_withSeed {s t : State} (hs : ¬s.Executes .seed) (h : step s = .next t) :
    ∃ t', step (s.withSeed f16 f64) = .next t' ∧ t'.registers = t.registers := by
  have hkind : edgeKind (s.withSeed f16 f64).control = edgeKind s.control := by rw [withSeed_control]
  obtain ⟨hk, rfl⟩ | ⟨hk, rfl⟩ | ⟨hk, u, hu, rfl⟩ | ⟨hk, rfl⟩ := step_cases h
  · exact ⟨_, step_powerLoss (hkind.trans hk), by simp⟩
  · exact ⟨_, step_reset (hkind.trans hk), by simp⟩
  · have hi : fetch s ≠ .seed := fun hi => hs ⟨hk, hi⟩
    refine ⟨(u.withSeed f16 f64).advance, ?_, by simp⟩
    rw [step_command (hkind.trans hk), withSeed_fetch, exec_withSeed f16 f64 hi hu, mapNext_next]
  · exact ⟨_, step_idle (hkind.trans hk), by simp⟩

end SeedPorts

/-- Settles O27: in either build the edge is the one with other values on the seed ports. -/
theorem seedPortsMatterOnlyToSeed : Obligations.SeedPortsMatterOnlyToSeed :=
  ⟨fun _ g _ hs h => step_withSeed (fun _ => g) id hs h, fun _ g _ hs h => step_withSeed id (fun _ => g) hs h⟩

end Sys2Proof.Machine
end

section
/-! A run of commands, one an edge, is the fold of `exec(op)` (20_memory.md R57, R60). -/

namespace Sys2Proof.Machine

/-! ### One command of a schedule -/

/-- The registers stand apart from the schedule of inputs. -/
@[simp] theorem withCycles_regs {G D : Type} (b : Built G D) (ps : List (Ports G)) : (b.withCycles ps).regs = b.regs := by
  cases ps <;> rfl

/-- The block after a cycle: the ports as they were driven in it, and the registers it left. -/
def Built.after {G D : Type} (b : Built G D) (p : Ports G) (r : Regs D) : Built G D :=
  { b with ports := p, regs := .defined r }

/-- The move to the next cycle takes the first cycle off a schedule. -/
theorem advance_after_withCycles {G D : Type} (b : Built G D) (p : Ports G) (ps : List (Ports G)) (r : Regs D) :
    Built.advance { b.withCycles (p :: ps) with regs := .defined r } = (b.after p r).withCycles ps := by
  cases ps <;> rfl

/-- The first command of a schedule takes effect on the registers, and the rest of the schedule is left (R160). -/
theorem step_schedule_w16 {b : Built Gen16 Data16} {r : Regs Data16} (hr : b.regs = .defined r) (op : Word4) (g : Gen16)
    (ps : List (Ports Gen16)) :
    step ⟨.w16 (b.withCycles (commandPorts op g :: ps))⟩ =
      .next ⟨.w16 ((b.after (commandPorts op g) (command16 op g r)).withCycles ps)⟩ := by
  have hregs : (b.withCycles (commandPorts op g :: ps)).regs = .defined r := by rw [withCycles_regs, hr]
  rw [step_command (edgeKind_command rfl rfl rfl), exec_w16 _ hregs, mapNext_next, advance_w16, advance_after_withCycles,
    ← effect16_decode]
  rfl

theorem step_schedule_w64 {b : Built Gen64 Data64} {r : Regs Data64} (hr : b.regs = .defined r) (op : Word4) (g : Gen64)
    (ps : List (Ports Gen64)) :
    step ⟨.w64 (b.withCycles (commandPorts op g :: ps))⟩ =
      .next ⟨.w64 ((b.after (commandPorts op g) (command64 op g r)).withCycles ps)⟩ := by
  have hregs : (b.withCycles (commandPorts op g :: ps)).regs = .defined r := by rw [withCycles_regs, hr]
  rw [step_command (edgeKind_command rfl rfl rfl), exec_w64 _ hregs, mapNext_next, advance_w64, advance_after_withCycles,
    ← effect64_decode]
  rfl

/-! ### The whole schedule -/

/-- The induction over the schedule, for any build whose steps take one command each. -/
theorem runSteps_schedule {G D : Type} (block : Built G D → State) (command : Word4 → G → Regs D → Regs D)
    (hstep : ∀ {b : Built G D} {r : Regs D}, b.regs = .defined r → ∀ (op : Word4) (g : G) (ps : List (Ports G)),
      step (block (b.withCycles (commandPorts op g :: ps))) =
        .next (block ((b.after (commandPorts op g) (command op g r)).withCycles ps)))
    (cmds : List (Word4 × G)) {b : Built G D} {r : Regs D} (hr : b.regs = .defined r) :
    ∃ t : Built G D,
      runSteps cmds.length (block (b.withCycles (cmds.map fun c => commandPorts c.1 c.2))) = .next (block t) ∧
      t.regs = .defined (cmds.foldl (fun q c => command c.1 c.2 q) r) ∧ t.params = b.params := by
  induction cmds generalizing b r with
  | nil => exact ⟨b.withCycles [], rfl, hr, rfl⟩
  | cons c cs ih =>
    obtain ⟨t, hrun, hregs, hparams⟩ := ih (b := b.after (commandPorts c.1 c.2) (command c.1 c.2 r)) rfl
    exact ⟨t, (runSteps_next (hstep hr c.1 c.2 _)).trans hrun, hregs, hparams⟩

/-- Settles O28: the run is the fold, and a readback is of the registers it leaves. -/
theorem runOfCommandsIsTheirFold : Obligations.RunOfCommandsIsTheirFold := by
  refine ⟨fun cmds b r hr => ?_, fun cmds b r hr => ?_⟩
  · obtain ⟨t, hrun, hregs, hparams⟩ := runSteps_schedule (fun b => ⟨.w16 b⟩) command16 step_schedule_w16 cmds hr
    exact ⟨t, hrun, hregs, hparams, readback_w16 hregs⟩
  · obtain ⟨t, hrun, hregs, hparams⟩ := runSteps_schedule (fun b => ⟨.w64 b⟩) command64 step_schedule_w64 cmds hr
    exact ⟨t, hrun, hregs, hparams, readback_w64 hregs⟩

end Sys2Proof.Machine
end

section
/-! What one edge samples and where the next cycle's inputs come from (20_memory.md R52, R60). -/

namespace Sys2Proof.Machine

@[simp] theorem withControl_params (f : Control → Control) (s : State) : (s.withControl f).params = s.params := by
  obtain ⟨b | b⟩ := s <;> rfl

/-- A driven word makes a command edge (R52). -/
theorem withFetchWord_edgeKind (s : State) (n w : Nat) : edgeKind (s.withFetchWord n w).control = .command := by
  simp [State.withFetchWord, driveWord, edgeKind]

/-- The port carries the word itself where the word fits the driven bits. -/
theorem withFetchWord_fetch (s : State) {n w : Nat} (hw : w < 2 ^ n) :
    fetch (s.withFetchWord n w) = decode s.variant (BitVec.ofNat 4 w) := by
  simp [State.withFetchWord, driveWord, fetch, Nat.mod_eq_of_lt hw]

theorem withFetchWord_registers (s : State) (n w : Nat) : (s.withFetchWord n w).registers = s.registers :=
  withControl_registers _ s

theorem withFetchWord_params (s : State) (n w : Nat) : (s.withFetchWord n w).params = s.params :=
  withControl_params _ s

/-- Settles O4: such an edge is a command edge, and what it fetches is the decoded word. -/
theorem stepRunsTheDecodedCommand : Obligations.StepRunsTheDecodedCommand :=
  fun _ hc hr hv => step_command (edgeKind_command hc hr hv)

/-- Settles O5: driving a word is driving control inputs, and a word below 16 fits the 8 driven bits. -/
theorem drivenWordIsExecutedNext : Obligations.DrivenWordIsExecutedNext := by
  intro s w hw
  refine ⟨?_, withFetchWord_registers s 8 w, withFetchWord_params s 8 w⟩
  rw [step_command (withFetchWord_edgeKind s 8 w), withFetchWord_fetch s (by omega : w < 2 ^ 8)]

/-- With nothing pending the host rests, in either build (log 3). -/
theorem advance_edgeKind_idle {G D : Type} {b : Built G D} (h : b.pending = []) :
    edgeKind b.advance.ports.ctl = .idle := by
  rw [advance_nothing_pending h]
  exact edgeKind_idle rfl rfl rfl

/-- Settles O8: the pending cycle or a rest becomes the present one, and registers and parameters stay. -/
theorem nextCycleComesFromTheHost : Obligations.NextCycleComesFromTheHost :=
  ⟨fun _ _ _ h => by rw [advance_w16, advance_pending h], fun _ _ _ h => by rw [advance_w64, advance_pending h],
    fun _ h => advance_edgeKind_idle h, fun _ h => advance_edgeKind_idle h,
    fun s => ⟨s.advance_registers, s.advance_params⟩⟩

end Sys2Proof.Machine
end

section
/-! What the output ports show (20_memory.md R51, 70_reset_and_hazards.md R237). -/

namespace Sys2Proof.Machine

/-- The W = 16 output ports, the valid bits as `STATUS` shows them (R31, R51). -/
theorem outputs_w16 {b : Built Gen16 Data16} {r : Regs Data16} (h : b.regs = .defined r) :
    State.outputs ⟨.w16 b⟩ =
      .ok (.w16 (readback16 r b.ports.ctl.rdIdx) r.data.out ((statusWord .w16 r).getLsbD 0) r.data.out32
        ((statusWord .w16 r).getLsbD 1) r.seedErr r.cmdErr) := by
  obtain ⟨h0, h1, -⟩ := statusWord_getLsbD .w16 r
  rw [h0, h1]
  simp [State.outputs, h]

/-- The W = 64 output ports, the valid bit as `STATUS` shows it (R31, R51). -/
theorem outputs_w64 {b : Built Gen64 Data64} {r : Regs Data64} (h : b.regs = .defined r) :
    State.outputs ⟨.w64 b⟩ =
      .ok (.w64 (readback64 r b.ports.ctl.rdIdx) r.data.out ((statusWord .w64 r).getLsbD 0) r.seedErr r.cmdErr) := by
  obtain ⟨h0, -⟩ := statusWord_getLsbD .w64 r
  rw [h0]
  simp [State.outputs, h]

/-- The output ports are a function of the registers and `rd_idx` (R51, R237). -/
theorem outputs_eq_of_registers {s t : State} (h : s.registers = t.registers)
    (hidx : s.control.rdIdx = t.control.rdIdx) : s.outputs = t.outputs := by
  obtain ⟨b, b', rfl, rfl, hr⟩ | ⟨b, b', rfl, rfl, hr⟩ := registers_eq_cases h
  · rw [control_w16, control_w16] at hidx
    simp [State.outputs, hr, hidx]
  · rw [control_w64, control_w64] at hidx
    simp [State.outputs, hr, hidx]

/-- Settles O40: each port by the registers, which other inputs than `rd_idx` leave as they are. -/
theorem outputPortsShowTheRegisters : Obligations.OutputPortsShowTheRegisters :=
  ⟨fun _ r h => ⟨readback16 r _, readback_w16 h _, outputs_w16 h⟩,
    fun _ r h => ⟨readback64 r _, readback_w64 h _, outputs_w64 h⟩,
    fun _ _ hidx => outputs_eq_of_registers rfl hidx, fun _ _ hidx => outputs_eq_of_registers rfl hidx⟩

end Sys2Proof.Machine
end

section
/-! The opcode map and its inverse (30_encoding.md R72, R73, R75). -/

namespace Sys2Proof.Machine

/-- Every instruction's word decodes to it in each build that has it (R72), gathered from the family `RoundTrip`. -/
theorem decode_encode (i : Instr) : Laws.RoundTrip.Statement i := by
  cases i with
  | nop => exact Laws.RoundTrip.nop
  | step => exact Laws.RoundTrip.step
  | step2 => exact Laws.RoundTrip.step2
  | illegalStep2W64 => exact Laws.RoundTrip.illegalStep2W64
  | seed => exact Laws.RoundTrip.seed
  | clrerr => exact Laws.RoundTrip.clrerr
  | illegal5 => exact Laws.RoundTrip.illegal5
  | illegal6 => exact Laws.RoundTrip.illegal6
  | illegal7 => exact Laws.RoundTrip.illegal7
  | illegal8 => exact Laws.RoundTrip.illegal8
  | illegal9 => exact Laws.RoundTrip.illegal9
  | illegalA => exact Laws.RoundTrip.illegalA
  | illegalB => exact Laws.RoundTrip.illegalB
  | illegalC => exact Laws.RoundTrip.illegalC
  | illegalD => exact Laws.RoundTrip.illegalD
  | illegalE => exact Laws.RoundTrip.illegalE
  | illegalF => exact Laws.RoundTrip.illegalF

/-- A word is the word of what it decodes to (R72, R75). -/
theorem encode_decode (v : Variant) (op : Word4) : encode (decode v op) = op := by
  cases v
  · revert op; decide
  · revert op; decide

/-- Settles O1: the sixteen words, looked up in each build. -/
theorem opcodeMapDecodesEveryWord : Obligations.OpcodeMapDecodesEveryWord := by
  refine ⟨fun v => ?_, rfl, rfl⟩
  cases v <;> decide

/-- Settles O2: the two round trips and the row's build. -/
theorem decodeAndEncodeAgree : Obligations.DecodeAndEncodeAgree :=
  ⟨decode_encode, fun v op => ⟨encode_decode v op, decode_wf v op⟩⟩

end Sys2Proof.Machine
end

section
/-! The assembler's text reader gives back what the printer writes (30_encoding.md R76, R77; log 12). -/

namespace Sys2Proof.Machine

/-! ### Words of a line -/

/-- One word of a line: not empty, and without a separator. -/
def isWord (w : List Char) : Bool := !w.isEmpty && w.all fun c => !isSeparator c

/-- A word that stands before `rest` ends there: at the end of the line or at a separator. -/
def endsWord : List Char → Bool
  | [] => true
  | c :: _ => isSeparator c

@[simp] theorem endsWord_cons (c : Char) (cs : List Char) : endsWord (c :: cs) = isSeparator c := rfl

theorem isWord_iff {w : List Char} : isWord w = true ↔ w ≠ [] ∧ ∀ c ∈ w, isSeparator c = false := by
  simp [isWord]

@[simp] theorem isWord_printNumber (n : Nat) : isWord (printNumber n) = true :=
  isWord_iff.mpr ⟨by simp [printNumber], printNumber_no_separator n⟩

@[simp] theorem isWord_hex4 (n : Word4) : isWord ['0', 'x', hexDigit n.toNat] = true := by
  have h := (hexDigit_reads n.toFin).1
  simpa [isWord_iff, isSeparator] using h

@[simp] theorem isWord_letters (r : RegName) : isWord (RegName.letters r) = true := by
  cases r <;> rfl

theorem flushWord_reverse {w : List Char} (hw : w ≠ []) : flushWord w.reverse = [.word w] := by
  obtain ⟨c, cs, h⟩ := List.exists_cons_of_ne_nil (List.reverse_ne_nil_iff.mpr hw)
  rw [h, flushWord, ← h, List.reverse_reverse]

/-- The word before a separator, or before the end of the line, is flushed there, and reading goes on with no word begun. -/
theorem lexLine_flush {rest : List Char} (hr : endsWord rest = true) (acc : List Char) :
    lexLine rest acc = flushWord acc ++ lexLine rest [] := by
  cases rest with
  | nil => simp [lexLine, flushWord]
  | cons c cs =>
    simp only [endsWord, isSeparator, Bool.or_eq_true, decide_eq_true_eq] at hr
    obtain ((((rfl | rfl) | rfl) | rfl) | rfl) | rfl := hr <;> simp [lexLine, flushWord]

/-- A word and what follows it are read apart. -/
theorem lexLine_word_append {w rest : List Char} (hw : isWord w = true) (hr : endsWord rest = true) :
    lexLine (w ++ rest) [] = .word w :: lexLine rest [] := by
  obtain ⟨hne, hsep⟩ := isWord_iff.mp hw
  rw [lexLine_word w rest [] hsep, List.append_nil, lexLine_flush hr, flushWord_reverse hne]
  rfl

theorem lexLine_word_alone {w : List Char} (hw : isWord w = true) : lexLine w [] = [.word w] := by
  simpa [lexLine, flushWord] using lexLine_word_append (rest := []) hw rfl

theorem lexLine_blank (cs : List Char) : lexLine (' ' :: cs) [] = lexLine cs [] := rfl
theorem lexLine_comma (cs : List Char) : lexLine (',' :: cs) [] = .comma :: lexLine cs [] := rfl
theorem lexLine_equals (cs : List Char) : lexLine ('=' :: cs) [] = .equals :: lexLine cs [] := rfl

/-! ### The arguments of a SEED line -/

section Args
variable {name : List Char} (hname : isWord name = true) {rest : List Char} (hr : endsWord rest = true)
include hname hr

theorem lexLine_printArg (n : Nat) :
    lexLine (printArg name n ++ rest) [] = .word name :: .equals :: .word (printNumber n) :: lexLine rest [] := by
  rw [printArg, List.append_assoc, lexLine_word_append hname rfl, List.cons_append, lexLine_equals,
    lexLine_word_append (isWord_printNumber n) hr]

/-- A printed argument is read as its number, and reading goes on with what stands behind it. -/
theorem readArg_printArg {n : Nat} (hn : n < 2 ^ 64) :
    readArg name (lexLine (printArg name n ++ rest) []) = some (n, lexLine rest []) := by
  rw [lexLine_printArg hname hr, readArg, if_pos rfl, readNumber_printNumber n hn]
  rfl

theorem readArg_other_name {other : List Char} (ho : name ≠ other) (n : Nat) :
    readArg other (lexLine (printArg name n ++ rest) []) = none := by
  rw [lexLine_printArg hname hr, readArg, if_neg ho]

theorem readNextArg_printArg {n : Nat} (hn : n < 2 ^ 64) :
    readNextArg name (lexLine (',' :: (printArg name n ++ rest)) []) = some (n, lexLine rest []) :=
  readArg_printArg hname hr hn

end Args

/-- The four arguments are read one after the other; behind the last the line ends. -/
theorem readCommonArgs_printCommonArgs {x0 x1 c weyl : Nat} (h0 : x0 < 2 ^ 64) (h1 : x1 < 2 ^ 64) (hc : c < 2 ^ 64)
    (hw : weyl < 2 ^ 64) :
    readCommonArgs (lexLine (printCommonArgs x0 x1 c weyl) []) = some (x0, x1, c, weyl) := by
  have hlast :
      readNextArg ['w', 'e', 'y', 'l'] (lexLine (',' :: printArg ['w', 'e', 'y', 'l'] weyl) []) = some (weyl, []) := by
    simpa [lexLine, flushWord] using readNextArg_printArg (name := ['w', 'e', 'y', 'l']) rfl (rest := []) rfl hw
  simp [-Nat.reducePow, printCommonArgs, readCommonArgs, readNextArg_printArg, h0, h1, hc, hlast, readEnd, isWord,
    isSeparator]

@[simp] theorem endsWord_printCommonArgs (x0 x1 c weyl : Nat) : endsWord (printCommonArgs x0 x1 c weyl) = true := by
  simp [printCommonArgs, isSeparator]

/-- The reader takes the printed arguments of either build for that build's. -/
theorem readSeedArgs_printSeedArgs {a : SeedArgs} (h : Line.bounded (.seed a) = true) :
    readSeedArgs (lexLine (printSeedArgs a) []) = some a := by
  cases a with
  | w16 s0 s1 x0 x1 c weyl =>
    simp only [Line.bounded, Bool.and_eq_true, decide_eq_true_eq] at h
    obtain ⟨⟨⟨⟨⟨hs0, hs1⟩, hx0⟩, hx1⟩, hc⟩, hw⟩ := h
    simp [-Nat.reducePow, printSeedArgs, readSeedArgs, readArg_other_name, readArg_printArg, readNextArg_printArg, hs0, hs1,
      readCommonArgs_printCommonArgs hx0 hx1 hc hw, isWord, isSeparator]
  | w64 xsh x0 x1 c weyl =>
    simp only [Line.bounded, Bool.and_eq_true, decide_eq_true_eq] at h
    obtain ⟨⟨⟨⟨hxsh, hx0⟩, hx1⟩, hc⟩, hw⟩ := h
    simp [-Nat.reducePow, printSeedArgs, readSeedArgs, readArg_printArg, hxsh,
      readCommonArgs_printCommonArgs hx0 hx1 hc hw, isWord, isSeparator]

/-! ### The other arguments -/

theorem readHex4_hexDigit (n : Word4) : readHex4 ['0', 'x', hexDigit n.toNat] = some n := by
  have h := (hexDigit_reads n.toFin).2
  simp only [BitVec.val_toFin] at h
  simp [readHex4, readDigits, h, n.isLt]

theorem readRegName_letters (r : RegName) : readRegName (RegName.letters r) = some r := by
  cases r <;> rfl

/-! ### Whole lines -/

/-- A line is what its first word makes of the tokens after it. -/
theorem parseLine_command {w rest : List Char} {l : Line} (hw : isWord w = true) (hr : endsWord rest = true)
    (h : readCommand w (lexLine rest []) = some l) : parseLine (w ++ rest) = .ok (some l) := by
  simp only [parseLine, lexLine_word_append hw hr, h]

/-- The form of a line whose command has one argument that is one word. -/
theorem parseLine_command_word {w a : List Char} {l : Line} (hw : isWord w = true) (ha : isWord a = true)
    (h : readCommand w [.word a] = some l) : parseLine (w ++ ' ' :: a) = .ok (some l) :=
  parseLine_command hw rfl (by rw [lexLine_blank, lexLine_word_alone ha, h])

/-- Settles O42: the first word says which line it is, and each argument is read back from its own text. -/
theorem assemblerReadsBackPrintedLines : Obligations.AssemblerReadsBackPrintedLines := by
  intro l h
  cases l with
  | nop | step | step2 | clrerr | reset | idle => rfl
  | seed a =>
    refine parseLine_command (w := ['S', 'E', 'E', 'D']) (rest := ' ' :: printSeedArgs a) rfl rfl ?_
    rw [lexLine_blank]
    simp [readCommand, readSeedArgs_printSeedArgs h]
  | illegal n =>
    exact parseLine_command_word (w := ['I', 'L', 'L', 'E', 'G', 'A', 'L']) rfl (isWord_hex4 n)
      (by simp [readCommand, readHex4_hexDigit])
  | stepN n =>
    have hn : n < 2 ^ 64 := by simpa [Line.bounded] using h
    exact parseLine_command_word (w := ['S', 'T', 'E', 'P', 'N']) rfl (isWord_printNumber n)
      (by simp [readCommand, readNumber_printNumber n hn])
  | step2N n =>
    have hn : n < 2 ^ 64 := by simpa [Line.bounded] using h
    exact parseLine_command_word (w := ['S', 'T', 'E', 'P', '2', 'N']) rfl (isWord_printNumber n)
      (by simp [readCommand, readNumber_printNumber n hn])
  | read r =>
    exact parseLine_command_word (w := ['R', 'E', 'A', 'D']) rfl (isWord_letters r)
      (by simp [readCommand, readRegName_letters])

end Sys2Proof.Machine
end

section
/-! What the host does for a line of a command program (30_encoding.md R76, R77). -/

namespace Sys2Proof.Machine

/-! ### The values of a SEED line -/

theorem fits_w16_iff {s0 s1 x0 x1 c weyl : Nat} :
    (SeedArgs.w16 s0 s1 x0 x1 c weyl).fits = true ↔
      s0 < 2 ^ 16 ∧ s1 < 2 ^ 16 ∧ x0 < 2 ^ 16 ∧ x1 < 2 ^ 16 ∧ c < 2 ^ 16 ∧ weyl < 2 ^ 16 := by
  simp only [SeedArgs.fits, Bool.and_eq_true, decide_eq_true_eq, and_assoc]

theorem fits_w64_iff {xsh x0 x1 c weyl : Nat} :
    (SeedArgs.w64 xsh x0 x1 c weyl).fits = true ↔
      xsh < 2 ^ 64 ∧ x0 < 2 ^ 55 ∧ x1 < 2 ^ 55 ∧ c < 2 ^ 64 ∧ weyl < 2 ^ 64 := by
  simp only [SeedArgs.fits, Bool.and_eq_true, decide_eq_true_eq, and_assoc]

/-- Values that stand in a generator's own registers fit the ports and are driven as they are (R76). -/
theorem seedOf16_toNat (g : Gen16) :
    seedOf16 (.w16 g.s0.toNat g.s1.toNat g.x0.toNat g.x1.toNat g.c.toNat g.weyl.toNat) = .ok g := by
  have hfits := fits_w16_iff.mpr ⟨g.s0.isLt, g.s1.isLt, g.x0.isLt, g.x1.isLt, g.c.isLt, g.weyl.isLt⟩
  simp [seedOf16, hfits]

theorem seedOf64_toNat (g : Gen64) :
    seedOf64 (.w64 g.xsh.toNat g.x0.toNat g.x1.toNat g.c.toNat g.weyl.toNat) = .ok g := by
  have hfits := fits_w64_iff.mpr ⟨g.xsh.isLt, g.x0.isLt, g.x1.isLt, g.c.isLt, g.weyl.isLt⟩
  simp [seedOf64, hfits]

theorem seedOf16_tooWide {s0 s1 x0 x1 c weyl : Nat} (h : ¬(SeedArgs.w16 s0 s1 x0 x1 c weyl).fits = true) :
    seedOf16 (.w16 s0 s1 x0 x1 c weyl) = .error .valueTooWide := if_neg h

theorem seedOf64_tooWide {xsh x0 x1 c weyl : Nat} (h : ¬(SeedArgs.w64 xsh x0 x1 c weyl).fits = true) :
    seedOf64 (.w64 xsh x0 x1 c weyl) = .error .valueTooWide := if_neg h

/-- The W = 16 assembler takes exactly its own arguments, each fitting its port (R76, I8). -/
theorem seedOf16_ok_iff (a : SeedArgs) : (∃ g, seedOf16 a = .ok g) ↔ (a.variant == .w16 && a.fits) = true := by
  cases a with
  | w16 s0 s1 x0 x1 c weyl => cases hf : (SeedArgs.w16 s0 s1 x0 x1 c weyl).fits <;> simp [seedOf16, SeedArgs.variant, hf]
  | w64 => simp [seedOf16, SeedArgs.variant]

/-- The W = 64 assembler likewise (R76, I8). -/
theorem seedOf64_ok_iff (a : SeedArgs) : (∃ g, seedOf64 a = .ok g) ↔ (a.variant == .w64 && a.fits) = true := by
  cases a with
  | w16 => simp [seedOf64, SeedArgs.variant]
  | w64 xsh x0 x1 c weyl => cases hf : (SeedArgs.w64 xsh x0 x1 c weyl).fits <;> simp [seedOf64, SeedArgs.variant, hf]

/-! ### One line -/

theorem commandPorts_edgeKind {G : Type} (op : Word4) (g : G) : edgeKind (commandPorts op g).ctl = .command :=
  edgeKind_command rfl rfl rfl
theorem resetPorts_edgeKind {G : Type} (g : G) : edgeKind (resetPorts g).ctl = .reset := edgeKind_reset rfl rfl
theorem idlePorts_edgeKind {G : Type} (g : G) : edgeKind (idlePorts g).ctl = .idle := edgeKind_idle rfl rfl rfl

/-- A register has a readback index in a build exactly when it is there (R33). -/
theorem index_isSome (v : Variant) (n : RegName) : (RegName.index v n).isSome = n.present v := by
  cases v <;> cases n <;> rfl

section Line
variable {G : Type} (v : Variant) {seedOf : SeedArgs → Except AsmError G} (spare : G)

theorem assembleLine_seed_ok {a : SeedArgs} {g : G} (h : seedOf a = .ok g) :
    assembleLine v seedOf spare (.seed a) = .ok [.edge (commandPorts 0x3#4 g)] := by
  simp only [assembleLine, h]; rfl

theorem assembleLine_seed_error {a : SeedArgs} {e : AsmError} (h : seedOf a = .error e) :
    assembleLine v seedOf spare (.seed a) = .error e := by
  simp only [assembleLine, h]

theorem assembleLine_read_present {v : Variant} {n : RegName} {idx : Word4} (h : RegName.index v n = some idx) :
    assembleLine v seedOf spare (.read n) = .ok [.observe idx] := by
  simp only [assembleLine, h]

theorem assembleLine_read_absent {v : Variant} {n : RegName} (h : RegName.index v n = none) :
    assembleLine v seedOf spare (.read n) = .error .noSuchRegister := by
  simp only [assembleLine, h]

/-- An assembler whose SEED arguments are those of its build takes exactly the well-formed lines of the build (R76, R77). -/
theorem assembleLine_ok_iff (hseed : ∀ a, (∃ g, seedOf a = .ok g) ↔ (a.variant == v && a.fits) = true) (l : Line) :
    (∃ as, assembleLine v seedOf spare l = .ok as) ↔ l.wf v = true := by
  cases l with
  | nop | step | step2 | clrerr | illegal | reset | idle | stepN => simp [assembleLine, Line.wf]
  | step2N n => cases v <;> simp [assembleLine, Line.wf]
  | seed a =>
    rw [Line.wf, ← hseed]
    cases hs : seedOf a with
    | ok g => simp [assembleLine_seed_ok v spare hs]
    | error e => simp [assembleLine_seed_error v spare hs]
  | read n =>
    rw [Line.wf, ← index_isSome]
    cases hi : RegName.index v n with
    | some idx => simp [assembleLine_read_present spare hi]
    | none => simp [assembleLine_read_absent spare hi]

/-! ### A program -/

theorem assemble_singleton (l : Line) : assemble v seedOf spare [l] = assembleLine v seedOf spare l := by
  cases h : assembleLine v seedOf spare l <;> simp [assemble, h]

/-- A line of one action, repeated, is that action repeated. -/
theorem assemble_replicate {l : Line} {a : Action G} (h : assembleLine v seedOf spare l = .ok [a]) (n : Nat) :
    assemble v seedOf spare (List.replicate n l) = .ok (List.replicate n a) := by
  induction n with
  | zero => rfl
  | succ n ih => simp [List.replicate_succ, assemble, h, ih]

/-- `STEPN n` is `n` lines of STEP, in either build (R77). -/
theorem assemble_stepN (n : Nat) :
    assemble v seedOf spare [.stepN n] = assemble v seedOf spare (List.replicate n .step) := by
  rw [assemble_singleton, assemble_replicate v spare rfl]; rfl

/-- `STEP2N n` is `n` lines of STEP2 in W = 16 (R77). -/
theorem assemble_step2N (n : Nat) :
    assemble .w16 seedOf spare [.step2N n] = assemble .w16 seedOf spare (List.replicate n .step2) := by
  rw [assemble_singleton, assemble_replicate .w16 spare rfl]; rfl

end Line

/-- Settles O43: the words by the encoder, SEED's operands by the ports' widths. -/
theorem mnemonicsAssembleToTheirWords : Obligations.MnemonicsAssembleToTheirWords := by
  refine ⟨fun _ => ⟨rfl, rfl, rfl, rfl, fun _ => rfl⟩, fun _ => ⟨rfl, rfl, rfl, rfl, fun _ => rfl⟩,
    fun op g => ⟨commandPorts_edgeKind op g, rfl, rfl⟩, fun op g => ⟨commandPorts_edgeKind op g, rfl, rfl⟩,
    fun spare g => assembleLine_seed_ok .w16 spare (seedOf16_toNat g),
    fun spare g => assembleLine_seed_ok .w64 spare (seedOf64_toNat g),
    fun spare s0 s1 x0 x1 c weyl hwide => ?_, fun spare xsh x0 x1 c weyl hwide => ?_⟩
  · have hfits : ¬(SeedArgs.w16 s0 s1 x0 x1 c weyl).fits = true := by rw [fits_w16_iff]; omega
    exact assembleLine_seed_error .w16 spare (seedOf16_tooWide hfits)
  · have hfits : ¬(SeedArgs.w64 xsh x0 x1 c weyl).fits = true := by rw [fits_w64_iff]; omega
    exact assembleLine_seed_error .w64 spare (seedOf64_tooWide hfits)

/-- The readback indices of W = 16 (R33). -/
theorem index_w16 : ∀ e ∈ [(RegName.s0, 0#4), (.s1, 1#4), (.x0, 2#4), (.x1, 3#4), (.c, 4#4), (.weyl, 5#4), (.out, 6#4),
    (.out32, 7#4), (.status, 8#4), (.config, 9#4)], RegName.index .w16 e.1 = some e.2 := by decide

/-- The readback indices of W = 64 (R33). -/
theorem index_w64 : ∀ e ∈ [(RegName.xsh, 0#4), (.x0, 2#4), (.x1, 3#4), (.c, 4#4), (.weyl, 5#4), (.out, 6#4),
    (.status, 8#4), (.config, 9#4)], RegName.index .w64 e.1 = some e.2 := by decide

/-- The registers only W = 16 has (R33). -/
theorem index_w64_absent : ∀ n ∈ [RegName.s0, .s1, .out32], RegName.index .w64 n = none := by decide

/-- Settles O44: one edge each for RESET and IDLE, the repeated lines by induction on their number, READ by the index map. -/
theorem pseudoInstructionsExpand : Obligations.PseudoInstructionsExpand :=
  ⟨fun spare =>
    ⟨⟨resetPorts spare, rfl, resetPorts_edgeKind spare⟩, ⟨idlePorts spare, rfl, idlePorts_edgeKind spare⟩,
      assemble_stepN .w16 spare, assemble_step2N spare,
      fun e he => assembleLine_read_present spare (index_w16 e he), assembleLine_read_absent spare rfl⟩,
    fun spare =>
    ⟨⟨resetPorts spare, rfl, resetPorts_edgeKind spare⟩, ⟨idlePorts spare, rfl, idlePorts_edgeKind spare⟩,
      assemble_stepN .w64 spare, fun _ => assemble_singleton .w64 spare _,
      fun e he => assembleLine_read_present spare (index_w64 e he),
      fun n hn => assembleLine_read_absent spare (index_w64_absent n hn)⟩⟩

/-- Settles O45: in each build by what its SEED takes. -/
theorem assemblerTakesExactlyTheBuildsLines : Obligations.AssemblerTakesExactlyTheBuildsLines :=
  ⟨fun spare l => assembleLine_ok_iff .w16 spare seedOf16_ok_iff l,
    fun spare l => assembleLine_ok_iff .w64 spare seedOf64_ok_iff l⟩

end Sys2Proof.Machine
end

section
/-! The W = 16 sub-steps as maps: the AWC sum is exact, the xorshift is linear and one-to-one, the Weyl word has full period
(40_step_w16.md R101 to R103; 41_step_w64.md R133). -/

namespace Sys2Proof.Machine

/-! ### The AWC sub-step (R102) -/

/-- The new carry and the new `X0` are quotient and remainder, so together they are the whole sum. -/
theorem awc16_sum (x0 x1 c : Word16) :
    (awc16 x0 x1 c).2.2.toNat * 2 ^ 16 + (awc16 x0 x1 c).1.toNat = x0.toNat + x1.toNat + c.toNat := by
  rw [awc16_c_toNat, awc16_x0_toNat, Nat.div_add_mod']

/-- Three words of 16 bits add up to less than `3 * 2 ^ 16`. -/
theorem awc16_c_le_two (x0 x1 c : Word16) : (awc16 x0 x1 c).2.2.toNat ≤ 2 := by
  have hsum := awc16_sum x0 x1 c
  omega

/-- Two words and a bit add up to less than `2 * 2 ^ 16`. -/
theorem awc16_c_le_one (x0 x1 : Word16) {c : Word16} (hc : c.toNat ≤ 1) : (awc16 x0 x1 c).2.2.toNat ≤ 1 := by
  have hsum := awc16_sum x0 x1 c
  omega

/-- A fixed point has equal words `x`, so the exact sum reads `c * 2 ^ 16 + x = x + x + c`, that is `c * 0xFFFF = x`. -/
theorem awc16_eq_self_iff (x0 x1 c : Word16) :
    awc16 x0 x1 c = (x0, x1, c) ↔
      (x0 = 0#16 ∧ x1 = 0#16 ∧ c = 0#16) ∨ (x0 = 0xFFFF#16 ∧ x1 = 0xFFFF#16 ∧ c = 1#16) := by
  constructor
  · intro h
    obtain rfl : x0 = x1 := congrArg (·.2.1) h
    have hsum : c.toNat * 2 ^ 16 + x0.toNat = x0.toNat + x0.toNat + c.toNat := by rw [← awc16_sum, h]
    simp only [BitVec.toNat_eq, BitVec.toNat_ofNat]
    omega
  · rintro (⟨rfl, rfl, rfl⟩ | ⟨rfl, rfl, rfl⟩) <;> decide

/-- Settles O29: everything follows from the exact sum. -/
theorem awc16IsExact : Obligations.Awc16IsExact := fun x0 x1 c =>
  ⟨awc16_sum x0 x1 c, awc16_x1 x0 x1 c, awc16_c_le_two x0 x1 c, awc16_c_le_one x0 x1, awc16_eq_self_iff x0 x1 c⟩

/-! ### The xorshift sub-step (R101) -/

/-- A rotation moves bits, and each bit of the result comes from one of the two shifts alone. -/
theorem rotl16_xor (x y : Word16) (r : Nat) : rotl16 (x ^^^ y) r = rotl16 x r ^^^ rotl16 y r := by
  refine BitVec.eq_of_getLsbD_eq fun i hi => ?_
  by_cases hir : i < r
  · simp [rotl16, hir]
  · have hout : ∀ z : Word16, z.getLsbD (16 - r + i) = false := fun z => BitVec.getLsbD_of_ge z _ (by omega)
    simp [rotl16, hi, hir, hout]

theorem xs16Mix_xor (s0 s1 u0 u1 : Word16) :
    xs16Mix (s0 ^^^ u0) (s1 ^^^ u1) = xs16Mix s0 s1 ^^^ xs16Mix u0 u1 := by
  simp only [xs16Mix]
  ac_rfl

/-- Every operation of the sub-step is linear: exclusive or, shift and rotation. -/
theorem xs16_xor (s0 s1 u0 u1 : Word16) :
    xs16 (s0 ^^^ u0) (s1 ^^^ u1) = ((xs16 s0 s1).1 ^^^ (xs16 u0 u1).1, (xs16 s0 s1).2 ^^^ (xs16 u0 u1).2) := by
  simp only [xs16, xs16Mix_xor, rotl16_xor, BitVec.shiftLeft_xor_distrib]
  congr 1
  ac_rfl

/-- A linear map that takes only 0 to 0 is one-to-one: apply it to the exclusive or of the two states. -/
theorem xs16_injective {s0 s1 u0 u1 : Word16} (h : xs16 s0 s1 = xs16 u0 u1) : s0 = u0 ∧ s1 = u1 := by
  have hzero : xs16 (s0 ^^^ u0) (s1 ^^^ u1) = (0#16, 0#16) := by
    rw [xs16_xor, h, BitVec.xor_self, BitVec.xor_self]
  obtain ⟨h0, h1⟩ := xs16_eq_zero hzero
  exact ⟨BitVec.xor_eq_zero_iff.mp h0, BitVec.xor_eq_zero_iff.mp h1⟩

/-- Settles O32: linear operation by operation, and one-to-one because only zero goes to zero. -/
theorem xorshift16IsLinearAndInjective : Obligations.Xorshift16IsLinearAndInjective :=
  ⟨xs16_xor, fun _ _ _ _ => xs16_injective⟩

/-! ### The Weyl sub-step (R103, R133) -/

/-- `n` additions of an odd word add `n * inc`, which `2 ^ w` divides exactly when it divides `n`. -/
theorem add_odd_iterate_eq_self_iff {w : Nat} {inc : BitVec w} (hodd : Odd inc.toNat) (x : BitVec w) (n : Nat) :
    (· + inc)^[n] x = x ↔ 2 ^ w ∣ n := by
  have hcoprime : Nat.Coprime (2 ^ w) inc.toNat := (Nat.coprime_two_left.mpr hodd).pow_left w
  have hmul : (n • inc).toNat = n * inc.toNat % 2 ^ w := by
    rw [nsmul_eq_mul, BitVec.toNat_mul, BitVec.natCast_eq_ofNat, BitVec.toNat_ofNat, Nat.mod_mul_mod]
  calc (· + inc)^[n] x = x
      ↔ n • inc = 0 := by rw [add_right_iterate_apply, add_eq_left]
    _ ↔ n * inc.toNat % 2 ^ w = 0 := by rw [BitVec.toNat_eq, hmul]; rfl
    _ ↔ 2 ^ w ∣ n * inc.toNat := Nat.dvd_iff_mod_eq_zero.symm
    _ ↔ 2 ^ w ∣ n := hcoprime.dvd_mul_right

/-- Settles O34: both increments are odd. -/
theorem weylHasFullPeriod : Obligations.WeylHasFullPeriod :=
  ⟨add_odd_iterate_eq_self_iff (inc := inc16) (by decide), add_odd_iterate_eq_self_iff (inc := inc64) (by decide)⟩

end Sys2Proof.Machine
end

section
/-! The W = 64 sub-steps as maps: the AWC sum is exact, the xorshift is linear and one-to-one (41_step_w64.md R131, R132). -/

namespace Sys2Proof.Machine

/-! ### The AWC sub-step (R132) -/

/-- The new carry and the new `X0` are quotient and remainder, so together they are the whole sum. -/
theorem awc55_sum (x0 x1 : Word55) (c : Word64) :
    (awc55 x0 x1 c).2.2.toNat * 2 ^ 55 + (awc55 x0 x1 c).1.toNat = x0.toNat + x1.toNat + c.toNat := by
  rw [awc55_c_toNat, awc55_x0_toNat, Nat.div_add_mod']

/-- Two words of 55 bits and one of 64 add up to less than `2 ^ 55 + 2 ^ 55 + 2 ^ 64 = 514 * 2 ^ 55`. -/
theorem awc55_c_le (x0 x1 : Word55) (c : Word64) : (awc55 x0 x1 c).2.2.toNat ≤ 513 := by
  have hsum := awc55_sum x0 x1 c
  omega

/-- Two words and a bit add up to less than `2 * 2 ^ 55`. -/
theorem awc55_c_le_one (x0 x1 : Word55) {c : Word64} (hc : c.toNat ≤ 1) : (awc55 x0 x1 c).2.2.toNat ≤ 1 := by
  have hsum := awc55_sum x0 x1 c
  omega

/-- A fixed point has equal words `x`, so the exact sum reads `c * 2 ^ 55 + x = x + x + c`, that is `c * (2 ^ 55 - 1) = x`: as `x`
has 55 bits, `c` is at most 1. -/
theorem awc55_eq_self_iff (x0 x1 : Word55) (c : Word64) :
    awc55 x0 x1 c = (x0, x1, c) ↔
      (x0 = 0#55 ∧ x1 = 0#55 ∧ c = 0#64) ∨
      (x0 = 0x007FFFFFFFFFFFFF#55 ∧ x1 = 0x007FFFFFFFFFFFFF#55 ∧ c = 1#64) := by
  constructor
  · intro h
    obtain rfl : x0 = x1 := congrArg (·.2.1) h
    have hsum : c.toNat * 2 ^ 55 + x0.toNat = x0.toNat + x0.toNat + c.toNat := by rw [← awc55_sum, h]
    simp only [BitVec.toNat_eq, BitVec.toNat_ofNat]
    omega
  · rintro (⟨rfl, rfl, rfl⟩ | ⟨rfl, rfl, rfl⟩) <;> decide

/-- Settles O30: everything follows from the exact sum. -/
theorem awc55IsExact : Obligations.Awc55IsExact := fun x0 x1 c =>
  ⟨awc55_sum x0 x1 c, awc55_x1 x0 x1 c, awc55_c_le x0 x1 c, awc55_c_le_one x0 x1, awc55_eq_self_iff x0 x1 c⟩

/-! ### The xorshift sub-step (R131) -/

/-- The shape of each line of `xs64`: a word exclusive-or its image under a linear map is linear in the word. -/
theorem xor_linear_xor {w : Nat} {f : BitVec w → BitVec w} (hf : ∀ x y, f (x ^^^ y) = f x ^^^ f y) (x y : BitVec w) :
    (x ^^^ y) ^^^ f (x ^^^ y) = (x ^^^ f x) ^^^ (y ^^^ f y) := by
  rw [hf]
  ac_rfl

theorem xs64A_xor (x y : Word64) : xs64A (x ^^^ y) = xs64A x ^^^ xs64A y :=
  xor_linear_xor (f := (· <<< 13)) (fun _ _ => BitVec.shiftLeft_xor_distrib ..) x y

theorem xs64B_xor (x y : Word64) : xs64B (x ^^^ y) = xs64B x ^^^ xs64B y :=
  xor_linear_xor (f := (· >>> 17)) (fun _ _ => BitVec.ushiftRight_xor_distrib ..) x y

theorem xs64C_xor (x y : Word64) : xs64C (x ^^^ y) = xs64C x ^^^ xs64C y :=
  xor_linear_xor (f := (· <<< 43)) (fun _ _ => BitVec.shiftLeft_xor_distrib ..) x y

/-- Each of the three lines is linear, and so is their composition. -/
theorem xs64_xor (x y : Word64) : xs64 (x ^^^ y) = xs64 x ^^^ xs64 y := by
  simp only [xs64, xs64A_xor, xs64B_xor, xs64C_xor]

/-- A linear map that takes only 0 to 0 is one-to-one: apply it to the exclusive or of the two words. -/
theorem xs64_injective {x y : Word64} (h : xs64 x = xs64 y) : x = y := by
  have hzero : xs64 (x ^^^ y) = 0#64 := by rw [xs64_xor, h, BitVec.xor_self]
  exact BitVec.xor_eq_zero_iff.mp (xs64_eq_zero hzero)

/-- Settles O33: linear line by line, and one-to-one because only zero goes to zero. -/
theorem xorshift64IsLinearAndInjective : Obligations.Xorshift64IsLinearAndInjective :=
  ⟨xs64_xor, fun _ _ => xs64_injective⟩

end Sys2Proof.Machine
end

section
/-! One generator step is the rules' pseudocode on natural numbers, and what STEP and STEP2 do (42_commands.md R163, R164;
40_step_w16.md R105, R106; 41_step_w64.md R135). -/

namespace Sys2Proof.Machine

/-! ### The datapath against the pseudocode -/

/-- R101 as numbers: both registers come from the same mixed word. -/
theorem xs16_toNat (s0 s1 : Word16) :
    (xs16 s0 s1).1.toNat =
        natRotl 16 s0.toNat 13 ^^^ (s1.toNat ^^^ s0.toNat) ^^^ natTrunc 16 (natShl (s1.toNat ^^^ s0.toNat) 5) ∧
      (xs16 s0 s1).2.toNat = natRotl 16 (s1.toNat ^^^ s0.toNat) 10 := by
  have hmix : (xs16Mix s0 s1).toNat = s1.toNat ^^^ s0.toNat := BitVec.toNat_xor ..
  constructor
  · rw [xs16, BitVec.toNat_xor, BitVec.toNat_xor, BitVec.toNat_shiftLeft, rotl16_toNat, hmix, Nat.shiftLeft_eq]
    rfl
  · rw [xs16, rotl16_toNat, hmix]

/-- R104 as numbers: truncating each partial sum or the whole sum is the same. -/
theorem out16_toNat (s0 s1 x0 weyl : Word16) :
    (out16 s0 s1 x0 weyl).toNat = natTrunc 16 (x0.toNat + s0.toNat + s1.toNat + weyl.toNat) := by
  rw [out16, BitVec.toNat_add, BitVec.toNat_add, BitVec.toNat_add, natTrunc]
  omega

/-- R105: the next generator state, sub-step by sub-step; the pseudocode's mask is a remainder. -/
theorem natGen16_nextGen16 (g : Gen16) : natGen16 (nextGen16 g) = natNext16 (natGen16 g) := by
  obtain ⟨hs0, hs1⟩ := xs16_toNat g.s0 g.s1
  have hmask (t : Nat) : t &&& 0xFFFF = t % 2 ^ 16 := Nat.and_two_pow_sub_one_eq_mod t 16
  simp only [natGen16, nextGen16, natNext16, hs0, hs1, awc16_x0_toNat, awc16_x1, awc16_c_toNat, weyl16_toNat, hmask, natShr]

/-- R135: the next generator state, sub-step by sub-step; the pseudocode's mask is a remainder. -/
theorem natGen64_nextGen64 (g : Gen64) : natGen64 (nextGen64 g) = natNext64 (natGen64 g) := by
  simp only [natGen64, nextGen64, natNext64, xs64_toNat, awc55_x0_toNat, awc55_x1, awc55_c_toNat, weyl64_toNat,
    Nat.and_two_pow_sub_one_eq_mod, natShr]

/-- R104, R105: the output reads the generator state after the step. -/
theorem step16_output_toNat (g : Gen16) : (step16 g).2.toNat = natOut16 (natNext16 (natGen16 g)) := by
  rw [← natGen16_nextGen16]
  exact out16_toNat ..

/-- R134, R135: the output reads the generator state after the step. -/
theorem step64_output_toNat (g : Gen64) : (step64 g).2.toNat = natOut64 (natNext64 (natGen64 g)) := by
  rw [← natGen64_nextGen64]
  exact out64_toNat ..

/-! ### The valid bits after a step -/

section Valid
variable {D : Type} {r r' : Regs D} (h : r'.outcnt = bumpOutcnt r.outcnt)
include h

theorem outValid_of_bumped : outValid r' = true := by
  rw [outValid, h, bumpOutcnt_toNat, decide_eq_true_eq]
  omega

/-- The count reaches 2 exactly when a step was counted before (R30, R31). -/
theorem out32Valid_of_bumped : out32Valid .w16 r' = decide (1 ≤ r.outcnt.toNat) := by
  rw [out32Valid, h, bumpOutcnt_toNat, decide_eq_decide]
  omega

end Valid

/-! ### The commands STEP and STEP2 -/

theorem exec_step_w16 {b : Built Gen16 Data16} {r : Regs Data16} (h : b.regs = .defined r) :
    exec .step ⟨.w16 b⟩ = .next ⟨.w16 { b with regs := .defined (doStep16 r) }⟩ := exec_w16 .step h

theorem exec_step_w64 {b : Built Gen64 Data64} {r : Regs Data64} (h : b.regs = .defined r) :
    exec .step ⟨.w64 b⟩ = .next ⟨.w64 { b with regs := .defined (doStep64 r) }⟩ := exec_w64 .step h

theorem exec_step2_w16 {b : Built Gen16 Data16} {r : Regs Data16} (h : b.regs = .defined r) :
    exec .step2 ⟨.w16 b⟩ = .next ⟨.w16 { b with regs := .defined (doStep16 (doStep16 r)) }⟩ := exec_w16 .step2 h

theorem doStep16_natGen (r : Regs Data16) : natGen16 (doStep16 r).data.gen = natNext16 (natGen16 r.data.gen) :=
  natGen16_nextGen16 r.data.gen

theorem doStep64_natGen (r : Regs Data64) : natGen64 (doStep64 r).data.gen = natNext64 (natGen64 r.data.gen) :=
  natGen64_nextGen64 r.data.gen

theorem doStep16_out_toNat (r : Regs Data16) :
    (doStep16 r).data.out.toNat = natOut16 (natNext16 (natGen16 r.data.gen)) :=
  step16_output_toNat r.data.gen

theorem doStep64_out_toNat (r : Regs Data64) :
    (doStep64 r).data.out.toNat = natOut64 (natNext64 (natGen64 r.data.gen)) :=
  step64_output_toNat r.data.gen

theorem doStep16_out32_toNat (r : Regs Data16) :
    (doStep16 r).data.out32.toNat = r.data.out.toNat * 2 ^ 16 + natOut16 (natNext16 (natGen16 r.data.gen)) := by
  rw [doStep16_out32, pack32_toNat, step16_output_toNat]

/-- Whatever was counted before, two steps are counted (R30, R164). -/
theorem doStep16_twice_outcnt_toNat (r : Regs Data16) : (doStep16 (doStep16 r)).outcnt.toNat = 2 := by
  rw [doStep16_outcnt, bumpOutcnt_toNat, doStep16_outcnt, bumpOutcnt_toNat]
  omega

/-- Settles O15: the registers after STEP are `doStep16`, `doStep64` of those before, field by field. -/
theorem stepRunsTheGeneratorOnce : Obligations.StepRunsTheGeneratorOnce :=
  ⟨fun v => decode_encode .step v rfl,
    fun _ r h => ⟨doStep16 r, exec_step_w16 h, doStep16_natGen r, doStep16_out_toNat r, doStep16_out32_toNat r,
      bumpOutcnt_toNat r.outcnt, rfl, rfl, outValid_of_bumped (doStep16_outcnt r), out32Valid_of_bumped (doStep16_outcnt r)⟩,
    fun _ r h => ⟨doStep64 r, exec_step_w64 h, doStep64_natGen r, doStep64_out_toNat r,
      bumpOutcnt_toNat r.outcnt, rfl, rfl, outValid_of_bumped (doStep64_outcnt r), rfl⟩⟩

/-- Settles O16: STEP2 is `doStep16` twice, so each field is read off the second step and then the first. -/
theorem step2RunsTheGeneratorTwice : Obligations.Step2RunsTheGeneratorTwice := by
  refine ⟨decode_encode .step2 .w16 rfl, decode_encode .illegalStep2W64 .w64 rfl, fun b r h =>
    ⟨⟨doStep16 (doStep16 r), exec_step2_w16 h, ?_, ?_, ?_, doStep16_twice_outcnt_toNat r, rfl, rfl,
      outValid_of_bumped (doStep16_outcnt (doStep16 r)), ?_⟩, ?_⟩⟩
  · rw [doStep16_natGen, doStep16_natGen]
  · rw [doStep16_out_toNat, doStep16_natGen]
  · rw [doStep16_out32_toNat, doStep16_out_toNat, doStep16_natGen]
  · rw [out32Valid, doStep16_twice_outcnt_toNat]; rfl
  · refine ⟨_, exec_step_w16 h, ?_⟩
    rw [exec_step2_w16 h, exec_step_w16 (b := { b with regs := .defined (doStep16 r) }) rfl]

end Sys2Proof.Machine
end

section
/-! The commands that do not step, the idle edge, and what a command's word settles (42_commands.md R160 to R162, R165 to
R168). -/

namespace Sys2Proof.Machine

/-! ### Words and idle edges -/

/-- Settles O3: a command's effect on the registers is read off its word (R160). -/
theorem equalWordsExecuteAlike : Obligations.EqualWordsExecuteAlike := by
  intro i j s h
  rw [exec_eq_onRegs i, exec_eq_onRegs j]
  simp only [effect16, effect64, h]

/-- Settles O7: an idle edge is a mere move to the next cycle, and of the commands `exec_generator_cases` leaves the four
excluded. -/
theorem idleEdgeChangesNoRegister : Obligations.IdleEdgeChangesNoRegister := by
  refine ⟨fun s hc hr hv => ⟨s.advance, step_idle (edgeKind_idle hc hr hv), s.advance_registers, s.advance_params⟩,
    fun i s t hstep hstep2 hillegal hseed h => ?_⟩
  obtain hsame | hi | hi | ⟨hi, -⟩ | ⟨hi, -⟩ := exec_generator_cases h
  · exact hsame
  · exact absurd hi hstep
  · exact absurd hi hstep2
  · exact absurd hi hillegal
  · exact absurd hi hseed

/-! ### NOP -/

/-- A state whose registers have a value, by its build. -/
theorem isDefined_cases {s : State} (h : s.isDefined = true) :
    (∃ b r, s = ⟨.w16 b⟩ ∧ b.regs = .defined r) ∨ (∃ b r, s = ⟨.w64 b⟩ ∧ b.regs = .defined r) := by
  obtain ⟨b | b⟩ := s
  · cases hr : b.regs with
    | undefined => simp [State.isDefined, hr] at h
    | defined r => exact .inl ⟨b, r, rfl, hr⟩
  · cases hr : b.regs with
    | undefined => simp [State.isDefined, hr] at h
    | defined r => exact .inr ⟨b, r, rfl, hr⟩

/-- Writing back the registers that are there changes nothing. -/
theorem Built.with_regs_self {G D : Type} {b : Built G D} {r : Regs D} (h : b.regs = .defined r) :
    { b with regs := .defined r } = b := by
  rw [← h]

/-- Settles O14: NOP writes back the registers it found. -/
theorem nopChangesNothing : Obligations.NopChangesNothing := by
  refine ⟨fun v => decode_encode .nop v rfl, fun s h => ?_⟩
  obtain ⟨b, r, rfl, hr⟩ | ⟨b, r, rfl, hr⟩ := isDefined_cases h
  · have hnop : exec .nop ⟨.w16 b⟩ = .next ⟨.w16 { b with regs := .defined r }⟩ := exec_w16 .nop hr
    rwa [Built.with_regs_self hr] at hnop
  · have hnop : exec .nop ⟨.w64 b⟩ = .next ⟨.w64 { b with regs := .defined r }⟩ := exec_w64 .nop hr
    rwa [Built.with_regs_self hr] at hnop

/-! ### SEED -/

theorem exec_seed_w16 {b : Built Gen16 Data16} {r : Regs Data16} (h : b.regs = .defined r) :
    exec .seed ⟨.w16 b⟩ = .next ⟨.w16 { b with regs := .defined (loadSeed16 b.ports.seed r) }⟩ := exec_w16 .seed h

theorem exec_seed_w64 {b : Built Gen64 Data64} {r : Regs Data64} (h : b.regs = .defined r) :
    exec .seed ⟨.w64 b⟩ = .next ⟨.w64 { b with regs := .defined (loadSeed64 b.ports.seed r) }⟩ := exec_w64 .seed h

/-- Settles O17: the two cases of the seed load, told apart by the degenerate predicate as R166 writes it. -/
theorem seedLoadsOrRefuses : Obligations.SeedLoadsOrRefuses := by
  refine ⟨fun v => decode_encode .seed v rfl, fun b r h => ⟨fun hd => ?_, fun hd => ?_⟩,
    fun b r h => ⟨fun hd => ?_, fun hd => ?_⟩⟩
  · rw [← degenerate16_iff] at hd
    rw [exec_seed_w16 h, loadSeed16_refused hd, setSeedErr]
  · rw [← degenerate16_iff, Bool.not_eq_true] at hd
    rw [exec_seed_w16 h, loadSeed16_accepted hd]
  · rw [← degenerate64_iff] at hd
    rw [exec_seed_w64 h, loadSeed64_refused hd, setSeedErr]
  · rw [← degenerate64_iff, Bool.not_eq_true] at hd
    rw [exec_seed_w64 h, loadSeed64_accepted hd]

/-! ### CLRERR and the illegal commands -/

/-- Settles O18: the effect of CLRERR is `clearErrs` in both builds. -/
theorem clrerrClearsBothErrorBits : Obligations.ClrerrClearsBothErrorBits :=
  ⟨fun v => decode_encode .clrerr v rfl, fun _ _ h => exec_w16 .clrerr h, fun _ _ h => exec_w64 .clrerr h⟩

/-- A word that is none of the legal ones of W = 16 is the last case of `exec(op)` (R160, R168). -/
theorem command16_reserved {op : Word4} (h : 5 ≤ op.toNat) (seed : Gen16) (r : Regs Data16) :
    command16 op seed r = setCmdErr r := by
  have hne : op ≠ 0x0#4 ∧ op ≠ 0x1#4 ∧ op ≠ 0x2#4 ∧ op ≠ 0x3#4 ∧ op ≠ 0x4#4 := by
    refine ⟨?_, ?_, ?_, ?_, ?_⟩ <;> rintro rfl <;> exact absurd h (by decide)
  obtain ⟨h0, h1, h2, h3, h4⟩ := hne
  rw [command16, if_neg h0, if_neg h1, if_neg h2, if_neg h3, if_neg h4]

/-- The same for W = 64, where `0x2` is reserved too. -/
theorem command64_reserved {op : Word4} (h : op = 0x2#4 ∨ 5 ≤ op.toNat) (seed : Gen64) (r : Regs Data64) :
    command64 op seed r = setCmdErr r := by
  have hne : op ≠ 0x0#4 ∧ op ≠ 0x1#4 ∧ op ≠ 0x3#4 ∧ op ≠ 0x4#4 := by
    refine ⟨?_, ?_, ?_, ?_⟩ <;> rintro rfl <;> exact absurd h (by decide)
  obtain ⟨h0, h1, h3, h4⟩ := hne
  rw [command64, if_neg h0, if_neg h1, if_neg h3, if_neg h4]

/-- The illegal commands by their words: `0x2`, or one of `0x5` to `0xF` (R73). -/
theorem illegalInstrs_word : ∀ i ∈ illegalInstrs, i = .illegalStep2W64 ∨ 5 ≤ (encode i).toNat := by decide

/-- Settles O19: an illegal command's word is none of its build's legal words, so its effect is `setCmdErr`. -/
theorem illegalCommandsSetOnlyCmdErr : Obligations.IllegalCommandsSetOnlyCmdErr := by
  refine ⟨fun v => ?_, decode_encode .illegalStep2W64 .w64 rfl, fun i b r hi hne h => ?_, fun i b r hi h => ?_⟩
  · cases v <;> decide
  · have hword : 5 ≤ (encode i).toNat := (illegalInstrs_word i hi).resolve_left hne
    rw [exec_w16 i h, effect16, command16_reserved hword, setCmdErr]
  · have hword : encode i = 0x2#4 ∨ 5 ≤ (encode i).toNat := (illegalInstrs_word i hi).imp_left (congrArg encode)
    rw [exec_w64 i h, effect64, command64_reserved hword, setCmdErr]

end Sys2Proof.Machine
end

section
/-! The error bits across one command and one edge (60_exceptions.md R201 to R203, 10_state.md R31). -/

namespace Sys2Proof.Machine

/-! ### The error bits of a state -/

/-- The error bits in the order of `State.stickyBits`: SEED_ERR, CMD_ERR (R31). -/
def Regs.errorBits {D : Type} (r : Regs D) : Bool × Bool := (r.seedErr, r.cmdErr)

/-- The error bits of a state, if they have a value: `State.stickyBits` without `OUTCNT`. -/
def State.errorBits (s : State) : Option (Bool × Bool) := s.stickyBits.map Prod.snd

theorem errorBits_of_stickyBits {s : State} {n : BitVec 2} {se ce : Bool} (h : s.stickyBits = some (n, se, ce)) :
    s.errorBits = some (se, ce) := by
  rw [State.errorBits, h, Option.map_some]

theorem errorBits_w16 {b : Built Gen16 Data16} {r : Regs Data16} (h : b.regs = .defined r) :
    State.errorBits ⟨.w16 b⟩ = some r.errorBits := by
  simp [State.errorBits, State.stickyBits, Regs.errorBits, h]

theorem errorBits_w64 {b : Built Gen64 Data64} {r : Regs Data64} (h : b.regs = .defined r) :
    State.errorBits ⟨.w64 b⟩ = some r.errorBits := by
  simp [State.errorBits, State.stickyBits, Regs.errorBits, h]

theorem errorBits_eq_of_registers {s t : State} (h : s.registers = t.registers) : s.errorBits = t.errorBits := by
  obtain ⟨b, b', rfl, rfl, hr⟩ | ⟨b, b', rfl, rfl, hr⟩ := registers_eq_cases h <;>
    simp [State.errorBits, State.stickyBits, hr]

@[simp] theorem State.advance_errorBits (s : State) : s.advance.errorBits = s.errorBits :=
  errorBits_eq_of_registers s.advance_registers

@[simp] theorem State.powerUp_errorBits (s : State) : s.powerUp.errorBits = none := by
  obtain ⟨b | b⟩ := s <;> rfl

@[simp] theorem State.resetEdge_errorBits (s : State) : s.resetEdge.errorBits = some (false, false) := by
  obtain ⟨b | b⟩ := s <;> rfl

/-! ### The error bits across one command -/

/-- What a command of a build does to the error bits: CLRERR clears both (R167), SEED with a degenerate seed sets the first (R165),
an illegal command sets the second (R168). -/
def errorBitsAfter (i : Instr) (degenerate : Bool) (e : Bool × Bool) : Bool × Bool :=
  if i = .clrerr then (false, false)
  else (e.1 || (decide (i = .seed) && degenerate), e.2 || decide (i ∈ illegalInstrs))

/-- Every command but CLRERR only adds to the error bits (R201). -/
theorem errorBitsAfter_of_ne_clrerr {i : Instr} (hi : i ≠ .clrerr) (degenerate se ce : Bool) :
    errorBitsAfter i degenerate (se, ce) =
      (se || (decide (i = .seed) && degenerate), ce || decide (i ∈ illegalInstrs)) :=
  if_neg hi

theorem loadSeed16_errorBits (seed : Gen16) (r : Regs Data16) :
    (loadSeed16 seed r).errorBits = errorBitsAfter .seed (degenerate16 seed) r.errorBits := by
  cases h : degenerate16 seed
  · simp [loadSeed16_accepted h, errorBitsAfter, illegalInstrs, Regs.errorBits]
  · simp [loadSeed16_refused h, errorBitsAfter, illegalInstrs, Regs.errorBits]

theorem loadSeed64_errorBits (seed : Gen64) (r : Regs Data64) :
    (loadSeed64 seed r).errorBits = errorBitsAfter .seed (degenerate64 seed) r.errorBits := by
  cases h : degenerate64 seed
  · simp [loadSeed64_accepted h, errorBitsAfter, illegalInstrs, Regs.errorBits]
  · simp [loadSeed64_refused h, errorBitsAfter, illegalInstrs, Regs.errorBits]

/-- The W = 16 commands; the word `0x2` is STEP2 there and sets no error bit. -/
theorem effect16_errorBits {i : Instr} (hi : i.wf .w16 = true) (seed : Gen16) (r : Regs Data16) :
    (effect16 i seed r).errorBits = errorBitsAfter i (degenerate16 seed) r.errorBits := by
  cases i
  case illegalStep2W64 => cases hi
  case seed => exact loadSeed16_errorBits seed r
  all_goals simp [effect16, command16, encode, errorBitsAfter, illegalInstrs, Regs.errorBits]

/-- The W = 64 commands; the word `0x2` is illegal there and sets `CMD_ERR`. -/
theorem effect64_errorBits {i : Instr} (hi : i.wf .w64 = true) (seed : Gen64) (r : Regs Data64) :
    (effect64 i seed r).errorBits = errorBitsAfter i (degenerate64 seed) r.errorBits := by
  cases i
  case step2 => cases hi
  case seed => exact loadSeed64_errorBits seed r
  all_goals simp [effect64, command64, encode, errorBitsAfter, illegalInstrs, Regs.errorBits]

/-- A command the build has does to the error bits what `errorBitsAfter` says. -/
theorem exec_errorBits {i : Instr} {s t : State} (hi : i.wf s.variant = true) (h : exec i s = .next t) :
    t.errorBits = s.errorBits.map (errorBitsAfter i s.seedDegenerate) := by
  obtain ⟨b, r, rfl, hr, rfl⟩ | ⟨b, r, rfl, hr, rfl⟩ := exec_cases h
  · rw [errorBits_w16 rfl, errorBits_w16 hr, effect16_errorBits hi, Option.map_some, seedDegenerate_w16]
  · rw [errorBits_w64 rfl, errorBits_w64 hr, effect64_errorBits hi, Option.map_some, seedDegenerate_w64]

/-! ### The error bits across one edge -/

/-- Everything one edge can do to the error bits: lose them with power, clear them at reset, execute a command, keep them. -/
theorem step_errorBits_cases {s t : State} (h : step s = .next t) :
    t.errorBits = none ∨
    (s.Resets ∧ t.errorBits = some (false, false)) ∨
    (∃ i, s.Executes i ∧ t.errorBits = s.errorBits.map (errorBitsAfter i s.seedDegenerate)) ∨
    t.errorBits = s.errorBits := by
  obtain ⟨-, rfl⟩ | ⟨hk, rfl⟩ | ⟨hk, u, hu, rfl⟩ | ⟨-, rfl⟩ := step_cases h
  · exact .inl (by simp)
  · exact .inr (.inl ⟨hk, by simp⟩)
  · have hwf : (fetch s).wf s.variant = true := decode_wf s.variant s.control.cmdOp
    exact .inr (.inr (.inl ⟨fetch s, ⟨hk, rfl⟩, by rw [State.advance_errorBits, exec_errorBits hwf hu]⟩))
  · exact .inr (.inr (.inr s.advance_errorBits))

/-- Settles O25: reset and CLRERR leave both bits 0, every other command only sets bits, each by the rule it has, and an edge
without a command changes neither. -/
theorem errorBitsAreSticky : Obligations.ErrorBitsAreSticky := by
  intro s t n n' se ce se' ce' h hs ht
  replace hs := errorBits_of_stickyBits hs
  replace ht := errorBits_of_stickyBits ht
  obtain hnone | ⟨hreset, hbits⟩ | ⟨i, hi, hbits⟩ | hbits := step_errorBits_cases h
  · rw [hnone] at ht; cases ht
  · rw [hbits] at ht
    cases ht
    simp [hreset]
  · rw [hs, ht, Option.map_some] at hbits
    by_cases hclr : i = .clrerr
    · subst hclr
      cases hbits
      simp [hi]
    · rw [errorBitsAfter_of_ne_clrerr hclr] at hbits
      cases hbits
      refine ⟨?_, ?_, ?_, ?_⟩
      · rintro rfl hset
        exact ⟨i, by simpa using hset, hi⟩
      · rintro rfl hset
        obtain ⟨rfl, hdeg⟩ : i = .seed ∧ s.seedDegenerate = true := by simpa using hset
        exact ⟨hi, hdeg⟩
      · rintro rfl hcleared; cases hcleared
      · rintro rfl hcleared; cases hcleared
  · rw [hs, ht] at hbits
    cases hbits
    simp +contextual

end Sys2Proof.Machine
end

section
/-! Reset, power-up and loss of power: when the registers have a value, and what a block without one shows
(70_reset_and_hazards.md R230 to R238, 60_exceptions.md R213). -/

namespace Sys2Proof.Machine

/-! ### Whether the registers have a value -/

theorem isDefined_eq_of_registers {s t : State} (h : s.registers = t.registers) : s.isDefined = t.isDefined := by
  obtain ⟨b, b', rfl, rfl, hr⟩ | ⟨b, b', rfl, rfl, hr⟩ := registers_eq_cases h <;> simp [State.isDefined, hr]

@[simp] theorem State.advance_isDefined (s : State) : s.advance.isDefined = s.isDefined :=
  isDefined_eq_of_registers s.advance_registers

@[simp] theorem State.powerUp_isDefined (s : State) : s.powerUp.isDefined = false := by
  obtain ⟨b | b⟩ := s <;> rfl

/-- A state whose registers have no value, by its build. -/
theorem undefined_cases {s : State} (h : s.isDefined = false) :
    (∃ b, s = ⟨.w16 b⟩ ∧ b.regs = .undefined) ∨ (∃ b, s = ⟨.w64 b⟩ ∧ b.regs = .undefined) := by
  obtain ⟨b | b⟩ := s
  · exact .inl ⟨b, rfl, by simpa [State.isDefined] using h⟩
  · exact .inr ⟨b, rfl, by simpa [State.isDefined] using h⟩

/-! ### Before the first reset -/

/-- Every command runs in one frame, which faults while no register has a value (R231). -/
theorem exec_undefined {s : State} (h : s.isDefined = false) (i : Instr) : exec i s = .fault .beforeReset := by
  obtain ⟨b, rfl, hr⟩ | ⟨b, rfl, hr⟩ := undefined_cases h
  · exact exec_w16_undefined i hr
  · exact exec_w64_undefined i hr

theorem readback_undefined {s : State} (h : s.isDefined = false) (idx : Word4) :
    s.readback idx = .error .beforeReset := by
  obtain ⟨b, rfl, hr⟩ | ⟨b, rfl, hr⟩ := undefined_cases h <;> simp [State.readback, hr]

theorem outputs_undefined {s : State} (h : s.isDefined = false) : s.outputs = .error .beforeReset := by
  obtain ⟨b, rfl, hr⟩ | ⟨b, rfl, hr⟩ := undefined_cases h <;> simp [State.outputs, hr]

/-- Settles O11: power loss and the idle edge leave the registers without a value, and a command faults. -/
theorem onlyResetDefinesTheRegisters : Obligations.OnlyResetDefinesTheRegisters := by
  intro s t hs h ht
  obtain ⟨-, rfl⟩ | ⟨hk, -⟩ | ⟨-, u, hu, -⟩ | ⟨-, rfl⟩ := step_cases h
  · simp at ht -- power loss
  · exact hk -- reset
  · rw [exec_undefined hs] at hu -- a command
    cases hu
  · simp [hs] at ht -- idle

/-- Settles O10: commands, readbacks and outputs all look at the registers first. -/
theorem nothingIsObservedBeforeReset : Obligations.NothingIsObservedBeforeReset :=
  fun _ h => ⟨exec_undefined h, readback_undefined h, outputs_undefined h⟩

/-! ### Reset edges and cycles that are not ordinary ones -/

/-- Settles O6: the edge is a reset edge, and the move to the next cycle keeps the registers it loads. -/
theorem resetEdgeLoadsEveryRegister : Obligations.ResetEdgeLoadsEveryRegister :=
  ⟨fun _ hc hr => ⟨_, step_reset (edgeKind_reset hc hr), advance_params _, advance_regs _⟩,
    fun _ hc hr => ⟨_, step_reset (edgeKind_reset hc hr), advance_params _, advance_regs _⟩⟩

theorem edgeKind_unstable {c : Control} (hc : c.cond = .unstable) : edgeKind c = .unstable := by
  simp [edgeKind, hc]

theorem edgeKind_powerLoss {c : Control} (hc : c.cond = .powerLost) : edgeKind c = .powerLoss := by
  simp [edgeKind, hc]

/-- Settles O9: the cycle's condition comes before `rst` and `cmd_valid`. -/
theorem unstableEdgeFaultsAndPowerLossUndefines : Obligations.UnstableEdgeFaultsAndPowerLossUndefines := by
  refine ⟨fun s hc => step_unstable (edgeKind_unstable hc), fun s hc => ?_⟩
  exact ⟨s.powerUp.advance, step_powerLoss (edgeKind_powerLoss hc), by simp, by simp⟩

/-! ### The build check (R233) -/

theorem build16_refused {p : Gen16} (h : degenerate16 p = true) : build16 p = none := if_pos h

theorem build64_refused {p : Gen64} (h : degenerate64 p = true) : build64 p = none := if_pos h

theorem build16_accepted {p : Gen16} (h : ¬degenerate16 p = true) : build16 p = some (State.reset16 p).powerUp := if_neg h

theorem build64_accepted {p : Gen64} (h : ¬degenerate64 p = true) : build64 p = some (State.reset64 p).powerUp := if_neg h

/-- Settles O12: the build check is the test for degenerate parameters, and what it passes is powered up, not reset. -/
theorem degenerateBuildsDoNotExist : Obligations.DegenerateBuildsDoNotExist := by
  refine ⟨fun p hp => build16_refused ((degenerate16_iff p).mpr hp),
    fun p hp => build64_refused ((degenerate64_iff p).mpr hp), fun p hp => ?_, fun p hp => ?_, ?_, ?_⟩
  · exact ⟨_, build16_accepted (mt (degenerate16_iff p).mp hp), rfl, State.powerUp_isDefined _⟩
  · exact ⟨_, build64_accepted (mt (degenerate64_iff p).mp hp), rfl, State.powerUp_isDefined _⟩
  · rw [build16_accepted (by decide)]; exact Option.some_ne_none _
  · rw [build64_accepted (by decide)]; exact Option.some_ne_none _

/-! ### Commands complete -/

/-- Settles O20: on registers that have a value a command answers its effect on them, written into the same block. -/
theorem everyCommandCompletes : Obligations.EveryCommandCompletes :=
  ⟨fun i _ _ hr => ⟨_, exec_w16 i hr⟩, fun i _ _ hr => ⟨_, exec_w64 i hr⟩⟩

end Sys2Proof.Machine
end
